-- ==== Sys2Proof/Word.lean ====
section
/-! DEFINITION. The widths of the PL-4 and their plainest arithmetic. -/

namespace Sys2Proof

/-- A word of the pattern array, a byte of the link, a slot column, a cue id: 8 bits (00_scope.md 1.4). -/
abbrev Byte := BitVec 8

/-- A two-byte field or counter. -/
abbrev Word16 := BitVec 16

/-- A physical row, 0 to 2047 (R103). -/
abbrev Row := Fin 2048

/-- An alias number, 0 to 63 (R113). -/
abbrev AliasNo := Fin 64

/-- A saturating counter "stops at the top of its stated range and does not wrap" (00_scope.md 1.6). -/
def satInc {n : Nat} (x : BitVec n) : BitVec n :=
  if x = BitVec.allOnes n then x else x + 1

/-- A number wrapping from its highest value to 0 is plain bit-vector addition. -/
def wrapInc {n : Nat} (x : BitVec n) : BitVec n := x + 1

/-- The least significant byte of a two-byte field; it is sent first (00_scope.md 1.6). -/
def loByte (n : Nat) : Byte := BitVec.ofNat 8 n

/-- The most significant byte of a two-byte field. -/
def hiByte (n : Nat) : Byte := BitVec.ofNat 8 (n / 256)

/-- The two bytes of a field, least significant first. -/
def fieldBytes (n : Nat) : List Byte := [loByte n, hiByte n]

/-- The number two bytes carry, least significant first. -/
def pairNat (lo hi : Byte) : Nat := lo.toNat + 256 * hi.toNat

end Sys2Proof
end

