-- ==== Sys2Proof/Syntax.lean ====
section
/-! DEFINITION. The commands of the PL-4: one constructor for each row of spec/opcode_table.json. -/

namespace Sys2Proof

/-- The four lanes (00_scope.md 1.4). -/
inductive LaneId where
  | l0 | l1 | l2 | l3
  deriving DecidableEq, Repr

/-- The cases of Table 9-3 in which the receiver discards a frame, less the idle expiry, which is a row of its own. -/
inductive DiscardCase where
  /-- The length field is above 528. -/
  | oversize
  /-- A character whose stop bit is low, in HEADER, PAYLOAD or CHECK. -/
  | characterFault
  /-- The received CRC is not the computed one. -/
  | crcMismatch
  /-- CRC correct, kind neither REQUEST nor NOTICE ACK. -/
  | wrongKind
  /-- CRC correct, kind NOTICE ACK, length not 1. -/
  | ackLength
  deriving DecidableEq, Repr

/-- A discarded frame: its case, and how long HRX had been high before the start bit of its first character (R140, R142). -/
structure DiscardedFrame where
  case : DiscardCase
  highNs : Nat
  deriving DecidableEq, Repr

/-- What HRX shows of a character beside its byte: the level of its stop bit, and how long HRX had been high before its start
bit, counted from the previous character's stop bit at the earliest (R140, R142). -/
structure CharacterLine where
  stopHigh : Bool
  highNs : Nat
  deriving DecidableEq, Repr

/-- The commands. A request frame carries its tag and its payload bytes (Table 10-6); its code is its row's.
Pins that an event samples are its operands. An LCK edge falls `afterNs` after the time of the state, inside its unit of
5 ns (R27). -/
inductive Instr where
  | cuePost (tag : Byte) (payload : List Byte)
  | cueFlush (tag : Byte) (payload : List Byte)
  | cueList (tag : Byte) (payload : List Byte)
  | laneConfig (tag : Byte) (payload : List Byte)
  | laneStart (tag : Byte) (payload : List Byte)
  | laneStop (tag : Byte) (payload : List Byte)
  | laneReset (tag : Byte) (payload : List Byte)
  | laneStatus (tag : Byte) (payload : List Byte)
  | rowWrite (tag : Byte) (payload : List Byte)
  | rowRead (tag : Byte) (payload : List Byte)
  | rowFill (tag : Byte) (payload : List Byte)
  | aliasBind (tag : Byte) (payload : List Byte)
  | aliasUnbind (tag : Byte) (payload : List Byte)
  | aliasQuery (tag : Byte) (payload : List Byte)
  | groupConfig (tag : Byte) (payload : List Byte)
  | groupGo (tag : Byte) (payload : List Byte)
  | groupStop (tag : Byte) (payload : List Byte)
  | groupStatus (tag : Byte) (payload : List Byte)
  | noticeResend (tag : Byte) (payload : List Byte)
  | echo (tag : Byte) (payload : List Byte)
  | deviceStatus (tag : Byte) (payload : List Byte)
  | deviceReset (tag : Byte) (payload : List Byte)
  | unknownRequest (tag code : Byte) (payload : List Byte)
  | noticeAck (seq : Byte)
  | frameDiscard (frame : DiscardedFrame)
  | idleExpiry
  | hardReset
  | resetnRelease (rate1 rate0 trig : Bool)
  | trigEdge (level : Bool) (heldNs : Nat)
  | dividerExpiry (lane : LaneId) (ld : Byte) (lqv : Bool)
  | lckEdge (lane : LaneId) (afterNs : Nat) (ld : Byte) (lqv : Bool)
  | refillCompletion
  | commitCompletion
  | hostOperationCompletion
  | arrayClearCompletion
  | transmitterFrameEnd
  | characterReceived (byte : Byte) (line : CharacterLine)
  deriving DecidableEq, Repr

end Sys2Proof
end

