-- ==== Sys2Proof/Config.lean ====
section
/-! DEFINITION. The fixed quantities of the PL-4 (Table 1-3) and the values the spec leaves open. -/

namespace Sys2Proof

/-- Words of a row (R103). -/
abbrev Config.rowWords : Nat := 512

/-- Words of the pattern array (R103). -/
abbrev Config.arrayWords : Nat := 2048 * 512

/-- Cues held by one lane (R12). -/
abbrev Config.maxHeld : Nat := 16

/-- Places of the open request table (R144). -/
abbrev Config.tablePlaces : Nat := 8

/-- Refusal replies the reply list holds (R148). -/
abbrev Config.maxRefusals : Nat := 4

/-- Operations of the host array queue, waiting and in flight (R147). -/
abbrev Config.hostQueuePlaces : Nat := 4

/-- Entries of the notice queue (R131). -/
abbrev Config.noticePlaces : Nat := 32

/-- Largest payload of a frame (R142). -/
abbrev Config.maxPayload : Nat := 528

/-- Lane grants in a row while a HOST claim waits (R54, R55). -/
abbrev Config.hostShare : Nat := 3

/-- Replies in a row while a notice waits (R149). -/
abbrev Config.replyShare : Nat := 4

/-- A period of REFCLK (R26). -/
abbrev Config.refclkNs : Nat := 25

/-- Port time of one row half (Table 3-2). -/
abbrev Config.halfNs : Nat := 1280

/-- Port time of the array clear: 4096 row halves (R105). -/
abbrev Config.clearNs : Nat := 4096 * 1280

/-- Least distance of two LCK edges that are beats (R27), and least hold of a TRIG level (R122). -/
abbrev Config.edgeNs : Nat := 50

/-- Bit times without a start bit after which a frame is discarded (R142, Table 9-3). -/
abbrev Config.idleBits : Nat := 32

/-- The unit in which time passes. DESIGN CHOICE: the greatest divisor of 25 ns, 1280 ns and the bit times
(log entry 3, unsafe only for claims about moments inside the unit). -/
abbrev Config.tickNs : Nat := 5

/-- A slot column outside the span of the slot's cue: "no rule reads them" (R60). Free value, log entry 16 (safe). -/
opaque Config.columnOutsideSpan : Nat → Byte

/-- Whether G1's notice stands before G2's for the TRIG edge taken in this event: "in either order" (R122).
Free value, log entry 17 (safe). -/
opaque Config.g1First : Nat → Bool

/-- Where an event that falls at the same moment as others is put among them. Free value, log entry 4 (safe). -/
opaque Config.dueAt : (now : Nat) → (index : Nat) → Nat

/-- The word the equipment drives on a capture lane's LD pins at a moment. Free value, log entry 5 (safe). -/
opaque Config.ldPins : (now : Nat) → LaneId → Byte

/-- The level the equipment drives on a capture lane's LQV pin at a moment. Free value, log entry 5 (safe). -/
opaque Config.lqvPin : (now : Nat) → LaneId → Bool

/-- Whether the host begins a further character within the 32 bit times that follow a stop bit at a moment (R142). Free value,
log entry 37 (safe). -/
opaque Config.startBitInTime : (lastStop : Nat) → Bool

end Sys2Proof
end

