-- ==== Sys2Proof/WellFormed.lean ====
section
/-! DEFINITION. Which commands the outside can send. A check that fails does not stop the machine: Machine/Ops.lean says
what the part does with the frame. -/

namespace Sys2Proof

/-- The request codes of Table 10-6. -/
def requestCodes : List Byte :=
  [0x10, 0x11, 0x12, 0x20, 0x21, 0x22, 0x23, 0x24, 0x30, 0x31, 0x32, 0x40, 0x41, 0x42,
   0x50, 0x51, 0x52, 0x53, 0x60, 0x70, 0x71, 0x72]

/-- A payload fits a valid frame: the length field is 0 to 528 (Table 10-1, R142). -/
def payloadFits (payload : List Byte) : Bool := payload.length ≤ Config.maxPayload

/-- A command the outside can send: a request's payload fits a frame, an UNKNOWN_REQUEST's code is no request code (R145),
and an LCK edge falls inside the unit of time that is running (log entry 35). -/
def Instr.wellFormed : Instr → Bool
  | .cuePost _ p => payloadFits p
  | .cueFlush _ p => payloadFits p
  | .cueList _ p => payloadFits p
  | .laneConfig _ p => payloadFits p
  | .laneStart _ p => payloadFits p
  | .laneStop _ p => payloadFits p
  | .laneReset _ p => payloadFits p
  | .laneStatus _ p => payloadFits p
  | .rowWrite _ p => payloadFits p
  | .rowRead _ p => payloadFits p
  | .rowFill _ p => payloadFits p
  | .aliasBind _ p => payloadFits p
  | .aliasUnbind _ p => payloadFits p
  | .aliasQuery _ p => payloadFits p
  | .groupConfig _ p => payloadFits p
  | .groupGo _ p => payloadFits p
  | .groupStop _ p => payloadFits p
  | .groupStatus _ p => payloadFits p
  | .noticeResend _ p => payloadFits p
  | .echo _ p => payloadFits p
  | .deviceStatus _ p => payloadFits p
  | .deviceReset _ p => payloadFits p
  | .unknownRequest _ code p => payloadFits p && !requestCodes.contains code
  | .noticeAck _ => true
  | .frameDiscard _ => true
  | .idleExpiry => true
  | .hardReset => true
  | .resetnRelease _ _ _ => true
  | .trigEdge _ _ => true
  | .dividerExpiry _ _ _ => true
  | .lckEdge _ afterNs _ _ => afterNs < Config.tickNs
  | .refillCompletion => true
  | .commitCompletion => true
  | .hostOperationCompletion => true
  | .arrayClearCompletion => true
  | .transmitterFrameEnd => true
  | .characterReceived _ _ => true

end Sys2Proof
end

