-- ==== Sys2Proof/Decode.lean ====
section
/-! DEFINITION. The command a word of the opcode table spells. No row of spec/opcode_table.json gives bits
("n_rows_with_fixed": 0 in spec/98_reader.md), so no word spells a command. The bytes of a frame are read by the
receiver in Machine/Link.lean (R141). -/

namespace Sys2Proof

/-- The table gives no row any bits, so every word is refused (log entry 31). -/
def decodeTableWord (nbits w : Nat) : Option Instr :=
  match nbits, w with
  | _, _ => none

end Sys2Proof
end

