-- ==== Sys2Proof/Machine/State.lean ====
section
/-! DEFINITION. The state of the PL-4: every piece the spec names, as plain data, and its values in hard reset. -/

namespace Sys2Proof.Machine

open Sys2Proof

/-- No rule of the spec stops the part with a fault: bad requests get statuses (Table 9-6), bad frames are discarded and
counted (R142), late words meet the stall policies (R67, R94). So no reason exists and no command raises one (safe). -/
inductive Fault where
  deriving DecidableEq, Repr

/-- The reasons for which a command has no meaning. -/
inductive Refusal where
  /-- Raised by no arm of `exec`: every row has its meaning. The constructor is the host's (safe). -/
  | notModelled (mnemonic : String)
  deriving DecidableEq, Repr

/-! ## Cues (chapter 1) -/

/-- Kind and number of a row reference (Table 10-3). -/
inductive RowRef where
  | row (row : Row)
  | aliased (number : AliasNo)
  deriving DecidableEq, Repr

/-- The half of a row (R2). -/
inductive Half where
  | lower | upper
  deriving DecidableEq, Repr

/-- The repeat field, and the repetitions left of an ACTIVE slot (R3). -/
inductive Reps where
  | count (n : Nat)
  | continuous
  deriving DecidableEq, Repr

/-- A cue record (Table 1-7), with `last` 255 where it was posted absent (R1). -/
structure Cue where
  id : Byte
  ref : RowRef
  half : Half
  tap : Byte
  last : Byte
  reps : Reps
  notifyStart : Bool
  notifyEnd : Bool
  haltAfter : Bool
  mark : Bool
  deriving DecidableEq, Repr

/-- A held cue: its record, its place in post order and its two tallies (R1, R20). -/
structure HeldCue where
  record : Cue
  order : Nat
  stallTally : Word16
  dropTally : Word16
  deriving DecidableEq, Repr

/-- The outcomes of Table 1-10. -/
inductive CueOutcome where
  | played | captured | cut
  /-- PARTIAL -/
  | partialSpan
  | late | unbound | flushed
  deriving DecidableEq, Repr

/-! ## Slots (chapters 2 and 5) -/

/-- The two slots of a lane. -/
inductive SlotName where
  | a | b
  deriving DecidableEq, Repr

/-- The row an operation was resolved to, and the alias generation where an alias was named (R56). -/
structure Resolution where
  row : Row
  generation : Option Byte
  deriving DecidableEq, Repr

/-- What a lane keeps while a slot is ACTIVE (R25): "set together whenever a slot becomes ACTIVE" and none, 0, none and
false when no slot is. `finalShown` is the model's own (R81, log entry 18): the word at the most recent beat was the
cue's final word. -/
structure Progress where
  pointer : Byte
  repsLeft : Reps
  begun : Bool
  finalShown : Bool
  deriving DecidableEq, Repr

/-- The slot columns a commit writes, first to last (R61). -/
structure ColumnRange where
  first : Byte
  last : Byte
  deriving DecidableEq, Repr

/-- A slot with what its state carries (Tables 2-5 and 5-1). `playing` and `capturing` are ACTIVE in play and in capture
mode. `words` holds the span's words from the tap on. A STAGED or COMMIT WAIT slot is its own pending claim and carries
the claim's age (R46, R47). -/
inductive Slot where
  | empty
  | staged (cue : HeldCue) (age : Nat)
  | loading (cue : HeldCue)
  | loaded (cue : HeldCue) (words : List Byte) (res : Resolution)
  | playing (cue : HeldCue) (words : List Byte) (res : Resolution) (progress : Progress)
  | discarding
  | assigned (cue : HeldCue)
  | capturing (cue : HeldCue) (words : List Byte) (progress : Progress)
  | commitWait (cue : HeldCue) (words : List Byte) (range : ColumnRange) (age : Nat)
  /-- COMMITTING; no cue where a reset removed it (R43). -/
  | committing (cue : Option HeldCue) (words : List Byte) (range : ColumnRange)
  deriving DecidableEq, Repr

/-! ## Lanes (chapter 2) -/

inductive Mode where
  | play | capture
  deriving DecidableEq, Repr

/-- Clock source with its divider (Table 2-1); an EXTERNAL lane's divider field is not read (R158). -/
inductive ClockSource where
  | internal (divider : Nat)
  | external
  deriving DecidableEq, Repr

inductive StallPolicy where
  | hold | skip | halt | drop
  deriving DecidableEq, Repr

inductive DryPolicy where
  | stop | wait
  deriving DecidableEq, Repr

inductive GroupName where
  | g1 | g2
  deriving DecidableEq, Repr

/-- The six fields of Table 2-1. -/
structure LaneConfig where
  mode : Mode
  clock : ClockSource
  idleWord : Byte
  stall : StallPolicy
  dry : DryPolicy
  group : Option GroupName
  deriving DecidableEq, Repr

inductive StallCause where
  | underrun | overrun | dry
  deriving DecidableEq, Repr

inductive HaltReason where
  /-- END -/
  | ended
  | request | underrun | overrun | group
  deriving DecidableEq, Repr

/-- The eight lane states (Table 2-3). The stall cause lives in STALLED, the halt reason in HALTED, the pending reason in
ENDING, "none otherwise" (Table 2-2). ENDING also keeps the ids its halt returned, for R100. -/
inductive LaneState where
  | idle | priming | ready | running
  | stalled (cause : StallCause)
  | ending (reason : HaltReason) (returned : List Byte)
  | halted (reason : HaltReason)
  | resetting
  deriving DecidableEq, Repr

/-- What a lane drives on its pins; `none` is not driven (R24, R29). -/
structure Pins where
  ld : Option Byte
  lqv : Option Bool
  lmk : Bool
  deriving DecidableEq, Repr

/-- A lane unit (Table 2-2). -/
structure Lane where
  config : LaneConfig
  state : LaneState
  lastCue : Option Byte
  stopPending : Bool
  /-- The model's own: the group has fired and the lane's first beat has not come (R34, R42; log entry 19). -/
  awaitingFirstBeat : Bool
  lastWord : Byte
  stallBeats : Word16
  lateCues : Byte
  droppedWords : Word16
  slotA : Slot
  slotB : Slot
  queue : List HeldCue
  nextOrder : Nat
  pins : Pins
  dividerStart : Nat
  /-- The moment of the last LCK edge taken as a beat; none before the first (R27; log entry 35). -/
  lastEdge : Option Nat
  deriving DecidableEq, Repr

/-- One item for each lane. -/
structure PerLane (α : Type) where
  l0 : α
  l1 : α
  l2 : α
  l3 : α
  deriving DecidableEq, Repr

/-! ## Array, aliases and port (chapters 3 and 6) -/

inductive ArrayState where
  | initialising | ready
  deriving DecidableEq, Repr

/-- The pattern array's words by key row * 512 + column, in canonical form (`Memory.wf`). -/
abbrev Memory := List Host.Cell

/-- An alias map entry (R113): BOUND exactly when a row is present. -/
structure AliasEntry where
  row : Option Row
  generation : Byte
  deriving DecidableEq, Repr

/-- What a host operation does to its columns (R109 to R111). -/
inductive HostKind where
  | write (start : Nat) (words : List Byte)
  | read (start count : Nat)
  | fill (first final : Nat) (word : Byte)
  deriving DecidableEq, Repr

/-- An operation of the host array queue, with the tag of its request (R108). -/
structure HostOp where
  tag : Byte
  ref : RowRef
  kind : HostKind
  deriving DecidableEq, Repr

/-- An operation on the port, with the row and generation fixed at its selection (R50, R56). -/
inductive Operation where
  | refill (lane : LaneId) (slot : SlotName) (res : Resolution)
  | commit (lane : LaneId) (slot : SlotName) (res : Resolution) (half : Half)
  | host (op : HostOp) (res : Resolution)
  | clear
  deriving DecidableEq, Repr

structure InFlight where
  op : Operation
  grantedAt : Nat
  deriving DecidableEq, Repr

/-- The array port: FREE when nothing is in flight (R48), and the consecutive lane grant count (R55). -/
structure Port where
  inFlight : Option InFlight
  laneGrants : Nat
  deriving DecidableEq, Repr

/-! ## Groups (chapter 7) -/

inductive TriggerSource where
  | request | pinRise | pinFall
  deriving DecidableEq, Repr

inductive GroupState where
  /-- OPEN -/
  | opened
  | armed | fired
  deriving DecidableEq, Repr

structure Group where
  trigger : TriggerSource
  haltTogether : Bool
  state : GroupState
  deriving DecidableEq, Repr

/-- One item for each group. -/
structure PerGroup (α : Type) where
  g1 : α
  g2 : α
  deriving DecidableEq, Repr

/-! ## Notices (chapter 8) -/

inductive LinkRate where
  /-- 0.5 Mbit/s -/
  | half
  | one | two | four
  deriving DecidableEq, Repr

inductive ResetCause where
  | pin | request
  deriving DecidableEq, Repr

/-- The three discard classes and LINK ERROR kinds (Table 9-3). -/
inductive LinkErrorKind where
  | crc | framing | oversize
  deriving DecidableEq, Repr

/-- The ten notice kinds with their fields (Table 8-1). A LINK ERROR's counters are read at each sending (R136). -/
inductive Notice where
  | start (cause : ResetCause) (rate : LinkRate)
  | arrayReady
  | cueStart (lane : LaneId) (cue : Byte) (row : Option Row) (generation : Option Byte)
  | cueEnd (lane : LaneId) (cue : Byte) (outcome : CueOutcome) (stallBeats droppedWords : Word16)
  | laneStall (lane : LaneId) (cue : Byte) (cause : StallCause)
  | laneHalted (lane : LaneId) (reason : HaltReason) (lastCue : Option Byte) (returned : List Byte)
  | groupFired (group : GroupName) (members : List LaneId)
  | triggerIgnored (group : GroupName) (state : GroupState)
  | linkError (kind : LinkErrorKind)
  | noticesLost (count : Word16)
  deriving DecidableEq, Repr

/-- An entry of the notice queue (R129). -/
structure NoticeEntry where
  seq : Byte
  notice : Notice
  sent : Bool
  deriving DecidableEq, Repr

structure NoticeQueue where
  entries : List NoticeEntry
  nextSeq : Byte
  lost : Word16
  deriving DecidableEq, Repr

/-! ## Link (chapter 9) -/

/-- The receiver's frame states (Table 9-2). -/
inductive FrameState where
  | hunting | header | payload | check
  deriving DecidableEq, Repr

/-- The receiver (R140 to R142). `bytes` are the bytes received from the kind on; `lastStop` is the moment of the last stop
bit inside a frame, and 0 in HUNTING. -/
structure Receiver where
  state : FrameState
  remaining : Nat
  crc : Word16
  bytes : List Byte
  checkLow : Byte
  lineBlocked : Bool
  lastStop : Nat
  deriving DecidableEq, Repr

inductive EntryState where
  | received | withOwner
  deriving DecidableEq, Repr

/-- An entry of the open request table (R144); its length is its payload's. -/
structure Entry where
  tag : Byte
  code : Byte
  payload : List Byte
  state : EntryState
  deriving DecidableEq, Repr

structure Link where
  rate : LinkRate
  receiver : Receiver
  table : List Entry
  crcErrors : Byte
  framingErrors : Byte
  oversizeErrors : Byte
  noRoom : Byte
  /-- The tag of the DEVICE RESET in progress (R153). -/
  deviceReset : Option Byte
  deriving DecidableEq, Repr

/-- The reply statuses (Table 9-6). -/
inductive Status where
  | ok | noRoom | tagInUse | unknownRequest | malformed | badField | wrongState
  | queueFull | duplicateCue | busy | notReady | unbound | aborted
  deriving DecidableEq, Repr

/-- The slot state names of Tables 2-5 and 5-1, as reports carry them (Table 10-9). -/
inductive SlotStatus where
  | empty | staged | loading | loaded | active | discarding | assigned | commitWait | committing
  deriving DecidableEq, Repr

/-- A slot in a report: its state, and its cue id when a cue is assigned (R17, R45). -/
structure SlotReport where
  status : SlotStatus
  cue : Option Byte
  deriving DecidableEq, Repr

/-- What CUE LIST reports (R17). -/
structure CueListReport where
  state : LaneState
  active : Option SlotName
  slotA : SlotReport
  slotB : SlotReport
  waiting : List Byte
  deriving DecidableEq, Repr

/-- What LANE STATUS reports (R45). -/
structure LaneReport where
  state : LaneState
  stallCause : Option StallCause
  haltReason : Option HaltReason
  active : Option SlotName
  pointer : Option Byte
  repsLeft : Option Reps
  slotA : SlotReport
  slotB : SlotReport
  waiting : Nat
  stallBeats : Word16
  lateCues : Byte
  droppedWords : Word16
  deriving DecidableEq, Repr

/-- What GROUP STATUS reports (R127). -/
structure GroupReport where
  group : Group
  members : List (LaneId × LaneState)
  deriving DecidableEq, Repr

/-- What DEVICE STATUS reports (R151). -/
structure DeviceReport where
  array : ArrayState
  crcErrors : Byte
  framingErrors : Byte
  oversizeErrors : Byte
  noRoom : Byte
  noticeDepth : Nat
  lost : Word16
  openRequests : Nat
  hostDepth : Nat
  lanes : PerLane LaneState
  deriving DecidableEq, Repr

/-- The fields of an OK reply (Table 10-6); any other status carries none (R146). -/
inductive ReplyFields where
  | none
  | flushed (count : Nat)
  | cueList (report : CueListReport)
  | laneStatus (report : LaneReport)
  | rowUsed (res : Resolution)
  | rowWords (res : Resolution) (start : Nat) (words : List Byte)
  | aliasEntry (number : AliasNo) (entry : AliasEntry)
  | groupStatus (report : GroupReport)
  | echo (bytes : List Byte)
  | deviceStatus (report : DeviceReport)
  deriving DecidableEq, Repr

/-- An answer holds its entry's place in the table, a refusal holds none (R148). -/
inductive ReplyKind where
  | answer | refusal
  deriving DecidableEq, Repr

/-- A reply in the reply list (R146). -/
structure Reply where
  kind : ReplyKind
  tag : Byte
  code : Byte
  status : Status
  fields : ReplyFields
  deriving DecidableEq, Repr

/-- The frame on HTX and the moment its first start bit left (R148). -/
structure Sending where
  frame : List Byte
  startedAt : Nat
  deriving DecidableEq, Repr

/-- The transmitter: FREE while nothing is being sent (R148). -/
structure Transmitter where
  replies : List Reply
  sending : Option Sending
  replyCount : Nat
  deriving DecidableEq, Repr

/-! ## The part -/

/-- A LANE STALL that the event in progress owes (R77): the lane, the cue id and the cause it will carry. -/
structure OwedStall where
  lane : LaneId
  cue : Byte
  cause : StallCause
  deriving DecidableEq, Repr

/-- The whole part. `event`, `now`, `pending` and `stalls` are the model's own (log entries 2, 3, 21 and 34). -/
structure State where
  /-- The level of RESETN: high, or low and so in hard reset (R155, R160). -/
  resetn : Bool
  /-- The level last taken on TRIG (R122). -/
  trigLevel : Bool
  arrayState : ArrayState
  array : Memory
  aliases : Vector AliasEntry 64
  port : Port
  hostWaiting : List HostOp
  /-- The age of the HOST claim, the event at which the head of `hostWaiting` came to be that; none with no HOST claim (R46). -/
  hostClaimAge : Option Nat
  lanes : PerLane Lane
  groups : PerGroup Group
  notices : NoticeQueue
  link : Link
  tx : Transmitter
  /-- The LANE STALLs that the event in progress owes, in the order in which they were caused; empty between events (R77). -/
  stalls : List OwedStall
  event : Nat
  now : Nat
  pending : List Instr
  deriving DecidableEq, Repr

/-- Table 2-1, the column "Value after hard reset and device reset". -/
def LaneConfig.default : LaneConfig :=
  { mode := .play, clock := .internal 40, idleWord := 0, stall := .hold, dry := .stop, group := none }

/-- Idle word 00h on LD, LQV and LMK low (R160). -/
def Pins.reset : Pins := { ld := some 0, lqv := some false, lmk := false }

/-- A lane in hard reset (R25, R22, R160). -/
def Lane.reset : Lane :=
  { config := LaneConfig.default, state := .idle, lastCue := none, stopPending := false,
    awaitingFirstBeat := false, lastWord := 0, stallBeats := 0, lateCues := 0, droppedWords := 0,
    slotA := .empty, slotB := .empty, queue := [], nextOrder := 0, pins := Pins.reset, dividerStart := 0,
    lastEdge := none }

/-- A group in hard reset (R118). -/
def Group.reset : Group := { trigger := .request, haltTogether := false, state := .opened }

/-- The receiver HUNTING with nothing kept (R141). That the receiver is HUNTING while RESETN is low is DESIGN CHOICE: R155 says
only that it enters HUNTING at the release. So is its bookkeeping (log entry 14). -/
def Receiver.hunting : Receiver :=
  { state := .hunting, remaining := 0, crc := 0xFFFF, bytes := [], checkLow := 0, lineBlocked := false, lastStop := 0 }

/-- The host link in hard reset (R155); the rate and the receiver are DESIGN CHOICE, log entry 14 (unsafe before the release
only). -/
def Link.reset : Link :=
  { rate := .half, receiver := Receiver.hunting, table := [], crcErrors := 0, framingErrors := 0,
    oversizeErrors := 0, noRoom := 0, deviceReset := none }

/-- The part right after reset: held in hard reset with RESETN low (R22, R25, R66, R104, R113, R118, R137, R155, R160;
log entry 1). -/
def State.reset : State :=
  { resetn := false
    trigLevel := false
    arrayState := .initialising
    array := []
    aliases := Vector.replicate 64 { row := none, generation := 0 }
    port := { inFlight := none, laneGrants := 0 }
    hostWaiting := []
    hostClaimAge := none
    lanes := { l0 := Lane.reset, l1 := Lane.reset, l2 := Lane.reset, l3 := Lane.reset }
    groups := { g1 := Group.reset, g2 := Group.reset }
    notices := { entries := [], nextSeq := 0, lost := 0 }
    link := Link.reset
    tx := { replies := [], sending := none, replyCount := 0 }
    stalls := []
    event := 0
    now := 0
    pending := [] }

end Sys2Proof.Machine
end

