-- ==== Sys2Proof/Machine/Ops.lean ====
section
/-! DEFINITION. The named operations over lanes, slots, memory, the notice queue and the reply list. -/

namespace Sys2Proof.Machine

open Sys2Proof

/-! ## Lanes and groups by name -/

/-- The lanes in ascending order. -/
def laneOrder : List LaneId := [.l0, .l1, .l2, .l3]

/-- The number of a lane, 0 to 3. -/
def laneNumber : LaneId → Nat
  | .l0 => 0
  | .l1 => 1
  | .l2 => 2
  | .l3 => 3

def PerLane.get {α : Type} (p : PerLane α) : LaneId → α
  | .l0 => p.l0
  | .l1 => p.l1
  | .l2 => p.l2
  | .l3 => p.l3

def PerLane.set {α : Type} (p : PerLane α) (l : LaneId) (x : α) : PerLane α :=
  match l with
  | .l0 => { p with l0 := x }
  | .l1 => { p with l1 := x }
  | .l2 => { p with l2 := x }
  | .l3 => { p with l3 := x }

def PerLane.map {α β : Type} (f : α → β) (p : PerLane α) : PerLane β :=
  { l0 := f p.l0, l1 := f p.l1, l2 := f p.l2, l3 := f p.l3 }

def PerGroup.get {α : Type} (p : PerGroup α) : GroupName → α
  | .g1 => p.g1
  | .g2 => p.g2

def PerGroup.set {α : Type} (p : PerGroup α) (g : GroupName) (x : α) : PerGroup α :=
  match g with
  | .g1 => { p with g1 := x }
  | .g2 => { p with g2 := x }

def State.lane (s : State) (l : LaneId) : Lane := s.lanes.get l

def State.setLane (s : State) (l : LaneId) (x : Lane) : State := { s with lanes := s.lanes.set l x }

def State.mapLane (s : State) (l : LaneId) (f : Lane → Lane) : State := s.setLane l (f (s.lane l))

def State.group (s : State) (g : GroupName) : Group := s.groups.get g

def State.setGroup (s : State) (g : GroupName) (x : Group) : State := { s with groups := s.groups.set g x }

/-- The members of a group: "the lanes whose lane configuration has that group in its group field" (R118), ascending. -/
def State.members (s : State) (g : GroupName) : List LaneId :=
  laneOrder.filter fun l => (s.lane l).config.group = some g

/-! ## Slots -/

/-- The cue assigned to a slot (R6): none in EMPTY, DISCARDING and a COMMITTING slot whose cue a reset removed. -/
def Slot.cue? : Slot → Option HeldCue
  | .empty => none
  | .staged c _ => some c
  | .loading c => some c
  | .loaded c _ _ => some c
  | .playing c _ _ _ => some c
  | .discarding => none
  | .assigned c => some c
  | .capturing c _ _ => some c
  | .commitWait c _ _ _ => some c
  | .committing c _ _ => c

/-- The slot state name reports carry (Tables 2-5, 5-1). -/
def Slot.status : Slot → SlotStatus
  | .empty => .empty
  | .staged _ _ => .staged
  | .loading _ => .loading
  | .loaded _ _ _ => .loaded
  | .playing _ _ _ _ => .active
  | .discarding => .discarding
  | .assigned _ => .assigned
  | .capturing _ _ _ => .active
  | .commitWait _ _ _ _ => .commitWait
  | .committing _ _ _ => .committing

/-- What an ACTIVE slot keeps (R25). -/
def Slot.progress? : Slot → Option Progress
  | .playing _ _ _ p => some p
  | .capturing _ _ p => some p
  | _ => none

def Slot.isEmpty : Slot → Bool
  | .empty => true
  | _ => false

def Slot.isLoaded : Slot → Bool
  | .loaded _ _ _ => true
  | _ => false

def Slot.isAssigned : Slot → Bool
  | .assigned _ => true
  | _ => false

def Slot.isDiscarding : Slot → Bool
  | .discarding => true
  | _ => false

/-- Ready to become ACTIVE at a start: LOADED in play mode (R33), ASSIGNED in capture mode (R90). -/
def Slot.isReady (x : Slot) : Bool := x.isLoaded || x.isAssigned

/-- Can still become ACTIVE: STAGED, LOADING, LOADED or ASSIGNED (R20). -/
def Slot.canBecomeActive : Slot → Bool
  | .staged _ _ => true
  | .loading _ => true
  | .loaded _ _ _ => true
  | .assigned _ => true
  | _ => false

/-- Not ready at a play span end: STAGED, LOADING or DISCARDING (Table 2-7, case 3). -/
def Slot.isAwaited : Slot → Bool
  | .staged _ _ => true
  | .loading _ => true
  | .discarding => true
  | _ => false

/-- Waiting on a commit: COMMIT WAIT or COMMITTING (R99, R100). -/
def Slot.owesCommit : Slot → Bool
  | .commitWait _ _ _ _ => true
  | .committing _ _ _ => true
  | _ => false

/-- An operation of the slot is in flight and its result has no cue: what a lane in RESETTING waits for (R43, R44). -/
def Slot.holdsReset : Slot → Bool
  | .discarding => true
  | .committing _ _ _ => true
  | _ => false

def SlotName.other : SlotName → SlotName
  | .a => .b
  | .b => .a

def Lane.slot (ln : Lane) : SlotName → Slot
  | .a => ln.slotA
  | .b => ln.slotB

def Lane.setSlot (ln : Lane) (n : SlotName) (x : Slot) : Lane :=
  match n with
  | .a => { ln with slotA := x }
  | .b => { ln with slotB := x }

/-- The cues in the slots, slot A's first. -/
def Lane.slotCues (ln : Lane) : List HeldCue := ln.slotA.cue?.toList ++ ln.slotB.cue?.toList

/-- The cues a lane holds: those in its slots and those waiting (R6). -/
def Lane.held (ln : Lane) : List HeldCue := ln.slotCues ++ ln.queue

/-- The held count, 0 to 16 (R6). -/
def Lane.heldCount (ln : Lane) : Nat := ln.held.length

/-- The ids of the held cues (R7). -/
def Lane.heldIds (ln : Lane) : List Byte := ln.held.map fun c => c.record.id

/-- The slot with the older cue among the slots that satisfy `p` and hold a cue (R8). -/
def Lane.oldestWhere (ln : Lane) (p : Slot → Bool) : Option SlotName :=
  let a := if p ln.slotA then ln.slotA.cue? else none
  let b := if p ln.slotB then ln.slotB.cue? else none
  match a, b with
  | some x, some y => if x.order ≤ y.order then some .a else some .b
  | some _, none => some .a
  | none, some _ => some .b
  | none, none => none

/-- The slot holding the lane's oldest slot cue. -/
def Lane.oldestSlot (ln : Lane) : Option SlotName := ln.oldestWhere fun _ => true

/-- The active slot, A, B or none (Table 2-2). -/
def Lane.activeSlot (ln : Lane) : Option SlotName :=
  if ln.slotA.progress?.isSome then some .a
  else if ln.slotB.progress?.isSome then some .b
  else none

/-- The pointer, repetitions left and begun of the ACTIVE slot (Table 2-2). -/
def Lane.progress? (ln : Lane) : Option Progress :=
  match ln.activeSlot with
  | some n => (ln.slot n).progress?
  | none => none

/-- Where the next head cue is staged: A when both slots are EMPTY, else the EMPTY one (R10). -/
def Lane.emptySlot (ln : Lane) : Option SlotName :=
  if ln.slotA.isEmpty then some .a
  else if ln.slotB.isEmpty then some .b
  else none

/-- The states in which a lane stages (R9). -/
def LaneState.stages : LaneState → Bool
  | .priming => true
  | .ready => true
  | .running => true
  | .stalled _ => true
  | _ => false

/-- The states a halt acts on (R78). -/
def LaneState.canHalt : LaneState → Bool
  | .priming => true
  | .ready => true
  | .running => true
  | .stalled _ => true
  | _ => false

/-- RUNNING, STALLED or ENDING: what keeps a group FIRED (R124). -/
def LaneState.keepsFired : LaneState → Bool
  | .running => true
  | .stalled _ => true
  | .ending _ _ => true
  | _ => false

/-- RUNNING or STALLED: what halt-together reaches (R125). -/
def LaneState.runsOrStalls : LaneState → Bool
  | .running => true
  | .stalled _ => true
  | _ => false

/-- IDLE or HALTED: where LANE CONFIG and LANE START are taken (R23, R31). -/
def LaneState.isStopped : LaneState → Bool
  | .idle => true
  | .halted _ => true
  | _ => false

def LaneState.stallCause? : LaneState → Option StallCause
  | .stalled c => some c
  | _ => none

def LaneState.haltReason? : LaneState → Option HaltReason
  | .halted r => some r
  | _ => none

def LaneState.pendingReason? : LaneState → Option HaltReason
  | .ending r _ => some r
  | _ => none

/-! ## Spans (R2) -/

/-- last - tap + 1. -/
def Cue.spanLength (c : Cue) : Nat := c.last.toNat - c.tap.toNat + 1

/-- The row column of a slot column: c for LOWER, 256 + c for UPPER. -/
def Half.column (h : Half) (c : Byte) : Nat :=
  match h with
  | .lower => c.toNat
  | .upper => 256 + c.toNat

/-- The word a slot holds in a column, its words standing from the tap on. A column outside them is free (log entry 16). -/
def wordAt (tap : Byte) (words : List Byte) (c : Byte) : Byte :=
  if c.toNat < tap.toNat then Config.columnOutsideSpan c.toNat
  else words.getD (c.toNat - tap.toNat) (Config.columnOutsideSpan c.toNat)

/-- Writes a captured word into a column; the words stand from the tap on and are taken in column order (R91). -/
def putWord (tap : Byte) (words : List Byte) (c w : Byte) : List Byte :=
  words.take (c.toNat - tap.toNat) ++ [w]

/-! ## The pattern array -/

/-- The key of a word: row and row column (R103). -/
def cellKey (r : Row) (column : Nat) : Nat := r.val * Config.rowWords + column

/-- Reads one word. An unlisted key reads 00h, as the array clear leaves it (R105; log entry 15). -/
def Memory.read : Memory → Nat → Byte
  | [], _ => 0
  | (k, v) :: m, key => if key = k then v else Memory.read m key

/-- Writes one word and keeps the canonical form: rising keys, no word 00h listed. -/
def Memory.write : Memory → Nat → Byte → Memory
  | [], key, w => if w = 0 then [] else [(key, w)]
  | (k, v) :: m, key, w =>
    if key < k then (if w = 0 then (k, v) :: m else (key, w) :: (k, v) :: m)
    else if key = k then (if w = 0 then m else (key, w) :: m)
    else (k, v) :: Memory.write m key w

/-- Keys above `low` and rising, inside the array, and no listed word 00h. -/
def Memory.wfAbove : Option Nat → Memory → Bool
  | _, [] => true
  | low, (k, v) :: m =>
    (match low with
      | none => true
      | some j => j < k) && decide (k < Config.arrayWords) && decide (v ≠ 0) && Memory.wfAbove (some k) m

/-- The canonical form. -/
def Memory.wf (m : Memory) : Bool := Memory.wfAbove none m

/-- Writes words into consecutive keys. -/
def Memory.writeList : Memory → Nat → List Byte → Memory
  | m, _, [] => m
  | m, key, w :: ws => Memory.writeList (m.write key w) (key + 1) ws

/-- Reads consecutive keys. -/
def Memory.readList (m : Memory) (key count : Nat) : List Byte :=
  (List.range count).map fun i => m.read (key + i)

/-- The words of a cue's span as the array holds them (R60). -/
def Memory.span (m : Memory) (r : Row) (c : Cue) : List Byte :=
  m.readList (cellKey r (c.half.column c.tap)) c.spanLength

/-- The words of a commit's range, as captured: the slot's words stand from the range's first column on (R61). -/
def rangeWords (words : List Byte) (range : ColumnRange) : List Byte :=
  words.take (range.last.toNat - range.first.toNat + 1)

/-! ## Aliases -/

def State.aliasAt (s : State) (n : AliasNo) : AliasEntry := s.aliases[n.val]'n.isLt

def State.setAlias (s : State) (n : AliasNo) (e : AliasEntry) : State :=
  { s with aliases := s.aliases.set n.val e n.isLt }

/-- Looks a row reference up (R56): none for an unbound alias. -/
def State.resolve (s : State) : RowRef → Option Resolution
  | .row r => some { row := r, generation := none }
  | .aliased n =>
    match (s.aliasAt n).row with
    | some r => some { row := r, generation := some (s.aliasAt n).generation }
    | none => none

/-! ## The notice queue (chapter 8) -/

/-- A notice offered to the queue joins at the tail, or is lost and counted when 32 are held (R131). -/
def NoticeQueue.join (q : NoticeQueue) (n : Notice) : NoticeQueue :=
  if q.entries.length < Config.noticePlaces then
    { q with entries := q.entries ++ [{ seq := q.nextSeq, notice := n, sent := false }],
             nextSeq := wrapInc q.nextSeq }
  else { q with lost := satInc q.lost }

/-- A block offers a notice. During a device reset it "is not queued and is not counted as lost" (R137, R153). -/
def State.offer (s : State) (n : Notice) : State :=
  if s.link.deviceReset.isSome then s else { s with notices := s.notices.join n }

/-- A LINK ERROR entry is held (R136). -/
def NoticeQueue.holdsLinkError (q : NoticeQueue) : Bool :=
  q.entries.any fun e =>
    match e.notice with
    | .linkError _ => true
    | _ => false

/-- How many entries an ACK of s removes: those from the head through s, or none when s is not held (R131, R133). -/
def NoticeQueue.ackCount (q : NoticeQueue) (s : Byte) : Nat :=
  match q.entries with
  | [] => 0
  | e :: _ => if (s - e.seq).toNat < q.entries.length then (s - e.seq).toNat + 1 else 0

/-- The offered notice: the oldest UNSENT entry (R132). -/
def NoticeQueue.offered (q : NoticeQueue) : Option NoticeEntry := q.entries.find? fun e => !e.sent

/-- Marks the oldest UNSENT entry SENT (R132). -/
def markSent : List NoticeEntry → List NoticeEntry
  | [] => []
  | e :: es => if e.sent then e :: markSent es else { e with sent := true } :: es

/-! ## The open request table and the reply list (chapter 9) -/

/-- Places held: by entries, and by answers that wait in the reply list (R144, R148). -/
def State.placesHeld (s : State) : Nat :=
  s.link.table.length + (s.tx.replies.filter fun r => r.kind = .answer).length

def State.entryOf (s : State) (tag : Byte) : Option Entry := s.link.table.find? fun e => e.tag = tag

def State.addReply (s : State) (r : Reply) : State := { s with tx := { s.tx with replies := s.tx.replies ++ [r] } }

/-- The owner's reply: the entry with this tag leaves the table and its answer joins the reply list (R146). -/
def State.answer (s : State) (tag : Byte) (status : Status) (fields : ReplyFields) : State :=
  match s.entryOf tag with
  | none => s
  | some e =>
    let s := { s with link := { s.link with table := s.link.table.filter fun x => x.tag ≠ tag } }
    s.addReply { kind := .answer, tag := tag, code := e.code, status := status, fields := fields }

def State.countNoRoom (s : State) : State := { s with link := { s.link with noRoom := satInc s.link.noRoom } }

/-- The refusal reply of a request refused at arrival; a fifth refusal is dropped and counted (R144, R148). -/
def State.refuse (s : State) (tag code : Byte) (status : Status) : State :=
  if (s.tx.replies.filter fun r => r.kind = .refusal).length < Config.maxRefusals then
    s.addReply { kind := .refusal, tag := tag, code := code, status := status, fields := .none }
  else s.countNoRoom

/-- An entry that passed the checks of R145 is WITH OWNER. -/
def State.handToOwner (s : State) (tag : Byte) : State :=
  { s with link := { s.link with
      table := s.link.table.map fun e => if e.tag = tag then { e with state := .withOwner } else e } }

/-- The host array queue's depth, waiting and in flight together (R147). -/
def State.hostDepth (s : State) : Nat :=
  s.hostWaiting.length +
    match s.port.inFlight with
    | some { op := .host _ _, .. } => 1
    | _ => 0

end Sys2Proof.Machine
end

