-- ==== Sys2Proof/Machine/Flags.lean ====
section
/-! DEFINITION. What a lane drives on LD, LQV and LMK, and its saturating counters and tallies. -/

namespace Sys2Proof.Machine

open Sys2Proof

/-! ## Pins (Table 2-4, R30, R86, R90) -/

/-- The idle word with LQV and LMK low; a capture lane drives LMK alone. -/
def Lane.quietPins (ln : Lane) : Pins :=
  match ln.config.mode with
  | .play => { ld := some ln.config.idleWord, lqv := some false, lmk := false }
  | .capture => { ld := none, lqv := none, lmk := false }

def Lane.quiet (ln : Lane) : Lane := { ln with pins := ln.quietPins }

/-- STALLED with cause UNDERRUN under HOLD: the last word, LQV and LMK low (R29, R69). -/
def Lane.holdWord (ln : Lane) : Lane :=
  { ln with pins := { ld := some ln.lastWord, lqv := some false, lmk := false } }

/-- A word presented at a beat: LD carries it, LQV is high, LMK as R30 gives; it is the last word (R37). -/
def Lane.present (ln : Lane) (w : Byte) (mark : Bool) : Lane :=
  { ln with lastWord := w, pins := { ld := some w, lqv := some true, lmk := mark } }

/-- LMK alone, on a capture lane (R90). -/
def Lane.drivesMark (ln : Lane) (mark : Bool) : Lane :=
  { ln with pins := { ln.pins with lmk := mark } }

/-! ## Counters and tallies (R20, R75, R76, R96) -/

/-- Replaces the cue of a slot and nothing else. -/
def Slot.mapCue (f : HeldCue → HeldCue) : Slot → Slot
  | .empty => .empty
  | .staged c n => .staged (f c) n
  | .loading c => .loading (f c)
  | .loaded c w r => .loaded (f c) w r
  | .playing c w r p => .playing (f c) w r p
  | .discarding => .discarding
  | .assigned c => .assigned (f c)
  | .capturing c w p => .capturing (f c) w p
  | .commitWait c w r n => .commitWait (f c) w r n
  | .committing c w r => .committing (c.map f) w r

/-- Changes the lane's current cue (R20): the ACTIVE cue; else the oldest cue in a slot that can still become ACTIVE; else
the head of the queue; else nothing. -/
def Lane.mapCurrentCue (ln : Lane) (f : HeldCue → HeldCue) : Lane :=
  match ln.activeSlot with
  | some n => ln.setSlot n ((ln.slot n).mapCue f)
  | none =>
    match ln.oldestWhere Slot.canBecomeActive with
    | some n => ln.setSlot n ((ln.slot n).mapCue f)
    | none =>
      match ln.queue with
      | [] => ln
      | c :: q => { ln with queue := f c :: q }

/-- A stall beat (R75): the lane's counter and the current cue's stall tally rise by 1. -/
def Lane.countStallBeat (ln : Lane) : Lane :=
  { ln with stallBeats := satInc ln.stallBeats }.mapCurrentCue
    fun c => { c with stallTally := satInc c.stallTally }

/-- A word dropped in an overrun (R96): the counter and the current cue's drop tally rise by 1. -/
def Lane.countDroppedWord (ln : Lane) : Lane :=
  { ln with droppedWords := satInc ln.droppedWords }.mapCurrentCue
    fun c => { c with dropTally := satInc c.dropTally }

/-- A cue retired LATE (R76). -/
def Lane.countLateCue (ln : Lane) : Lane := { ln with lateCues := satInc ln.lateCues }

/-- The three counters cleared (R45). -/
def Lane.clearCounters (ln : Lane) : Lane := { ln with stallBeats := 0, lateCues := 0, droppedWords := 0 }

/-! ## Link counters (R142, R151) -/

/-- The class counter of a discard rises by 1 (R142). -/
def Link.countDiscard (k : Link) : LinkErrorKind → Link
  | .crc => { k with crcErrors := satInc k.crcErrors }
  | .framing => { k with framingErrors := satInc k.framingErrors }
  | .oversize => { k with oversizeErrors := satInc k.oversizeErrors }

/-- The four link counters become 0 (R151, R152). -/
def Link.clearCounters (k : Link) : Link :=
  { k with crcErrors := 0, framingErrors := 0, oversizeErrors := 0, noRoom := 0 }

end Sys2Proof.Machine
end

