-- ==== Sys2Proof/Machine/Frames.lean ====
section
/-! DEFINITION. The bytes of the part's own frames (chapter 10): enumerated values, reply fields, notice bodies, CRC, and the
transmitter that takes them (R148, R149). -/

namespace Sys2Proof.Machine

open Sys2Proof

/-! ## Enumerated values (Tables 10-8 and 10-9) -/

def statusValue : Status → Nat
  | .ok => 0x00
  | .noRoom => 0x01
  | .tagInUse => 0x02
  | .unknownRequest => 0x03
  | .malformed => 0x04
  | .badField => 0x05
  | .wrongState => 0x06
  | .queueFull => 0x07
  | .duplicateCue => 0x08
  | .busy => 0x09
  | .notReady => 0x0A
  | .unbound => 0x0B
  | .aborted => 0x0C

def laneByte (l : LaneId) : Byte := BitVec.ofNat 8 (laneNumber l)

def laneStateByte : LaneState → Byte
  | .idle => 0x00
  | .priming => 0x01
  | .ready => 0x02
  | .running => 0x03
  | .stalled _ => 0x04
  | .ending _ _ => 0x05
  | .halted _ => 0x06
  | .resetting => 0x07

def slotStatusByte : SlotStatus → Byte
  | .empty => 0x00
  | .staged => 0x01
  | .loading => 0x02
  | .loaded => 0x03
  | .active => 0x04
  | .discarding => 0x05
  | .assigned => 0x06
  | .commitWait => 0x07
  | .committing => 0x08

def activeByte : Option SlotName → Byte
  | none => 0x00
  | some .a => 0x01
  | some .b => 0x02

def stallCauseByte : Option StallCause → Byte
  | none => 0x00
  | some .underrun => 0x01
  | some .overrun => 0x02
  | some .dry => 0x03

def haltReasonByte : Option HaltReason → Byte
  | none => 0x00
  | some .ended => 0x01
  | some .request => 0x02
  | some .underrun => 0x03
  | some .overrun => 0x04
  | some .group => 0x05

def outcomeByte : CueOutcome → Byte
  | .played => 0x01
  | .captured => 0x02
  | .cut => 0x03
  | .partialSpan => 0x04
  | .late => 0x05
  | .unbound => 0x06
  | .flushed => 0x07

def repsByte : Option Reps → Byte
  | none => 0x00
  | some (.count n) => BitVec.ofNat 8 n
  | some .continuous => 0xFF

def groupByte : GroupName → Byte
  | .g1 => 0x01
  | .g2 => 0x02

def groupStateByte : GroupState → Byte
  | .opened => 0x00
  | .armed => 0x01
  | .fired => 0x02

def triggerByte : TriggerSource → Byte
  | .request => 0x00
  | .pinRise => 0x01
  | .pinFall => 0x02

def arrayStateByte : ArrayState → Byte
  | .initialising => 0x00
  | .ready => 0x01

def rateByte : LinkRate → Byte
  | .half => 0x00
  | .one => 0x01
  | .two => 0x02
  | .four => 0x03

def resetCauseByte : ResetCause → Byte
  | .pin => 0x00
  | .request => 0x01

def linkErrorByte : LinkErrorKind → Byte
  | .crc => 0x01
  | .framing => 0x02
  | .oversize => 0x03

def boolByte (b : Bool) : Byte := if b then 0x01 else 0x00

/-! ## Blocks and reply payloads (Tables 10-5, 10-6, R159) -/

/-- The resolution block: presence, row, generation; absent items are 0. -/
def resolutionBytes (row : Option Row) (generation : Option Byte) : List Byte :=
  let presence : Byte := (if row.isSome then 0x01 else 0x00) ||| (if generation.isSome then 0x02 else 0x00)
  let n : Nat := match row with
    | some r => r.val
    | none => 0
  presence :: fieldBytes n ++ [generation.getD 0]

def Resolution.bytes (r : Resolution) : List Byte := resolutionBytes (some r.row) r.generation

def SlotReport.bytes (r : SlotReport) : List Byte := [slotStatusByte r.status, r.cue.getD 0]

def CueListReport.bytes (r : CueListReport) : List Byte :=
  [laneStateByte r.state, activeByte r.active] ++ r.slotA.bytes ++ r.slotB.bytes ++
    [loByte r.waiting.length] ++ r.waiting

def LaneReport.bytes (r : LaneReport) : List Byte :=
  [laneStateByte r.state, stallCauseByte r.stallCause, haltReasonByte r.haltReason, activeByte r.active,
    r.pointer.getD 0, repsByte r.repsLeft] ++ r.slotA.bytes ++ r.slotB.bytes ++ [loByte r.waiting] ++
    fieldBytes r.stallBeats.toNat ++ [r.lateCues] ++ fieldBytes r.droppedWords.toNat

def aliasBytes (n : AliasNo) (e : AliasEntry) : List Byte :=
  let row : Nat := match e.row with
    | some r => r.val
    | none => 0
  [loByte n.val, boolByte e.row.isSome] ++ fieldBytes row ++ [e.generation]

def memberBytes : List (LaneId × LaneState) → List Byte
  | [] => []
  | (l, st) :: ms => laneByte l :: laneStateByte st :: memberBytes ms

def GroupReport.bytes (r : GroupReport) : List Byte :=
  [groupStateByte r.group.state, triggerByte r.group.trigger, boolByte r.group.haltTogether,
    loByte r.members.length] ++ memberBytes r.members

def DeviceReport.bytes (r : DeviceReport) : List Byte :=
  [arrayStateByte r.array, r.crcErrors, r.framingErrors, r.oversizeErrors, r.noRoom, loByte r.noticeDepth] ++
    fieldBytes r.lost.toNat ++
    [loByte r.openRequests, loByte r.hostDepth, laneStateByte r.lanes.l0, laneStateByte r.lanes.l1,
      laneStateByte r.lanes.l2, laneStateByte r.lanes.l3]

def ReplyFields.bytes : ReplyFields → List Byte
  | .none => []
  | .flushed n => [loByte n]
  | .cueList r => r.bytes
  | .laneStatus r => r.bytes
  | .rowUsed r => r.bytes
  | .rowWords r start words => r.bytes ++ fieldBytes start ++ fieldBytes words.length ++ words
  | .aliasEntry n e => aliasBytes n e
  | .groupStatus r => r.bytes
  | .echo bytes => bytes
  | .deviceStatus r => r.bytes

/-! ## Notice codes and bodies (Table 10-7) -/

def Notice.code : Notice → Byte
  | .start _ _ => 0x01
  | .arrayReady => 0x02
  | .cueStart _ _ _ _ => 0x03
  | .cueEnd _ _ _ _ _ => 0x04
  | .laneStall _ _ _ => 0x05
  | .laneHalted _ _ _ _ => 0x06
  | .groupFired _ _ => 0x07
  | .triggerIgnored _ _ => 0x08
  | .linkError _ => 0x09
  | .noticesLost _ => 0x0A

/-- The body; a LINK ERROR's counters are read from the link as the entry is taken (R136). -/
def Notice.body (k : Link) : Notice → List Byte
  | .start cause rate => [resetCauseByte cause, rateByte rate]
  | .arrayReady => []
  | .cueStart l c row gen => [laneByte l, c] ++ resolutionBytes row gen
  | .cueEnd l c o stall dropped =>
    [laneByte l, c, outcomeByte o] ++ fieldBytes stall.toNat ++ fieldBytes dropped.toNat
  | .laneStall l c cause => [laneByte l, c, stallCauseByte (some cause)]
  | .laneHalted l reason lastCue returned =>
    [laneByte l, haltReasonByte (some reason), boolByte lastCue.isSome, lastCue.getD 0,
      loByte returned.length] ++ returned
  | .groupFired g members => [groupByte g, loByte members.length] ++ members.map laneByte
  | .triggerIgnored g st => [groupByte g, groupStateByte st]
  | .linkError kind => [linkErrorByte kind, k.crcErrors, k.framingErrors, k.oversizeErrors]
  | .noticesLost n => fieldBytes n.toNat

/-! ## CRC and frame (R156, R157) -/

/-- One data bit into the CRC register: shift left, and XOR with 1021h when the bit shifted out XOR the data bit is 1. -/
def crcBit (crc : Word16) (bit : Bool) : Word16 :=
  if crc.msb != bit then (crc <<< 1) ^^^ 0x1021 else crc <<< 1

/-- One byte, most significant bit first. -/
def crcByte (crc : Word16) (b : Byte) : Word16 :=
  [7, 6, 5, 4, 3, 2, 1, 0].foldl (fun c i => crcBit c (b.getLsbD i)) crc

/-- The CRC of a run of bytes, from FFFFh. -/
def crcOf (bytes : List Byte) : Word16 := bytes.foldl crcByte 0xFFFF

/-- Table 10-1. -/
def frameBytes (kind tag code : Byte) (payload : List Byte) : List Byte :=
  let body := [kind, tag, code] ++ fieldBytes payload.length ++ payload
  0xC3 :: body ++ fieldBytes (crcOf body).toNat

/-- A reply's kind is 80h plus its status; a status other than OK has no payload (R156). -/
def Reply.frame (r : Reply) : List Byte :=
  frameBytes (BitVec.ofNat 8 (0x80 + statusValue r.status)) r.tag r.code
    (if r.status = .ok then r.fields.bytes else [])

/-- A notice frame carries its sequence number as tag and its kind as code (R156). -/
def NoticeEntry.frame (k : Link) (e : NoticeEntry) : List Byte :=
  frameBytes 0x03 e.seq e.notice.code (e.notice.body k)

/-! ## Characters on a line (R139) -/

/-- The levels of a line in the ten bit times of a character: a start bit (low), the data bits with the least significant
first, and a stop bit, which is high but in a character fault (R139, R140). -/
def characterLevels (b : Byte) (stop : Bool) : List Bool :=
  false :: ([0, 1, 2, 3, 4, 5, 6, 7].map b.getLsbD) ++ [stop]

/-- What HRX shows, bit time by bit time, of the byte of a CHARACTER_RECEIVED. -/
def CharacterLine.levels (line : CharacterLine) (b : Byte) : List Bool := characterLevels b line.stopHigh

/-- The levels of a frame on HTX: its characters back to back, without idle time. -/
def Sending.levels (f : Sending) : List Bool := f.frame.flatMap fun b => characterLevels b true

/-- A bit time of the link (Table 9-1). -/
def LinkRate.bitNs : LinkRate → Nat
  | .half => 2000
  | .one => 1000
  | .two => 500
  | .four => 250

/-- The level of HTX: that of the bit being sent; high while RESETN is low and whenever no frame is being sent (R139). -/
def State.htx (s : State) : Bool :=
  match s.resetn, s.tx.sending with
  | false, _ => true
  | true, none => true
  | true, some f => f.levels.getD ((s.now - f.startedAt) / s.link.rate.bitNs) true

/-! ## The transmitter (R132, R148, R149) -/

/-- Takes the oldest reply. -/
def State.takeReply (s : State) (r : Reply) (rest : List Reply) (count : Nat) : State :=
  { s with tx := { replies := rest, sending := some { frame := r.frame, startedAt := s.now },
                   replyCount := count } }

/-- Takes the offered notice, which becomes SENT and stays in the queue; the count becomes 0. -/
def State.takeNotice (s : State) (e : NoticeEntry) : State :=
  { s with
    notices := { s.notices with entries := markSent s.notices.entries }
    tx := { s.tx with sending := some { frame := e.frame s.link, startedAt := s.now }, replyCount := 0 } }

/-- A FREE transmitter chooses its next frame, once everything the event handed over waits (R149). -/
def State.transmit (s : State) : State :=
  match s.tx.sending with
  | some _ => s
  | none =>
    match s.tx.replies, s.notices.offered with
    | [], none => s
    | r :: rest, none => s.takeReply r rest 0
    | [], some e => s.takeNotice e
    | r :: rest, some e =>
      if s.tx.replyCount < Config.replyShare then s.takeReply r rest (s.tx.replyCount + 1)
      else s.takeNotice e

/-! ## Events -/

/-- A new event begins: it numbers the claims it places (R46). -/
def State.nextEvent (s : State) : State := { s with event := s.event + 1 }

/-- One event of the part: its effect, then the transmitter's choice. While RESETN is low nothing reaches the part
(R155, R160; log entry 8). -/
def State.happen (s : State) (f : State → State) : Host.Outcome State Fault Refusal :=
  if s.resetn then .next (f s.nextEvent).transmit else .next s

end Sys2Proof.Machine
end

