-- ==== Sys2Proof/Machine/LaneOps.lean ====
section
/-! DEFINITION. What the lane units do in more than one command: retirement, staging, becoming ACTIVE, halts and
halt-together, the dry policy, lane reset, and the re-evaluation of the groups. -/

namespace Sys2Proof.Machine

open Sys2Proof

/-! ## Retirement (R18, R19) -/

/-- The outcomes whose CUE END is queued with or without NOTIFY END. -/
def CueOutcome.alwaysReported : CueOutcome → Bool
  | .late => true
  | .unbound => true
  | .cut => true
  | .partialSpan => true
  | .played => false
  | .captured => false
  | .flushed => false

/-- A cue's retirement queues its CUE END where R19 calls for one. -/
def State.retire (s : State) (l : LaneId) (c : HeldCue) (o : CueOutcome) : State :=
  if c.record.notifyEnd || o.alwaysReported then
    s.offer (.cueEnd l c.record.id o c.stallTally c.dropTally)
  else s

/-! ## Staging (R9, R10) -/

/-- The slot state a staged cue enters: STAGED with its REFILL claim placed, or ASSIGNED. -/
def Lane.stagedSlot (ln : Lane) (c : HeldCue) (age : Nat) : Slot :=
  match ln.config.mode with
  | .play => .staged c age
  | .capture => .assigned c

/-- One move of the head cue into an EMPTY slot, in a staging state. -/
def Lane.stageHead (age : Nat) (ln : Lane) : Lane :=
  if ln.state.stages then
    match ln.queue, ln.emptySlot with
    | c :: q, some n => { ln.setSlot n (ln.stagedSlot c age) with queue := q }
    | _, _ => ln
  else ln

/-- "The move is repeated within the same event for as long as the three things still hold": two slots, two moves. -/
def Lane.stage (age : Nat) (ln : Lane) : Lane := (ln.stageHead age).stageHead age

/-! ## Becoming ACTIVE (R35, R88, R25) -/

def Progress.atTap (c : Cue) : Progress :=
  { pointer := c.tap, repsLeft := c.reps, begun := false, finalShown := false }

/-- A LOADED or ASSIGNED slot becomes ACTIVE, and its cue becomes the last cue; any other slot stays. -/
def Lane.activate (n : SlotName) (ln : Lane) : Lane :=
  match ln.slot n with
  | .loaded c words res =>
    { ln.setSlot n (.playing c words res (Progress.atTap c.record)) with lastCue := some c.record.id }
  | .assigned c =>
    { ln.setSlot n (.capturing c [] (Progress.atTap c.record)) with lastCue := some c.record.id }
  | _ => ln

/-- The lane becomes RUNNING with this slot ACTIVE. -/
def Lane.run (n : SlotName) (ln : Lane) : Lane := { ln.activate n with state := .running }

/-- The slot of the oldest slot cue is LOADED or ASSIGNED (R33, R90). -/
def Lane.firstReady (ln : Lane) : Bool :=
  match ln.oldestSlot with
  | some n => (ln.slot n).isReady
  | none => false

/-! ## Halts (R78 to R82, R99, R100) -/

/-- The cue a halt returns to the queue: one in a slot that has not begun (R21, Tables 4-2 and 5-4). -/
def Slot.returned? : Slot → Option HeldCue
  | .staged c _ => some c
  | .loading c => some c
  | .loaded c _ _ => some c
  | .playing c _ _ p => if p.begun then none else some c
  | .assigned c => some c
  | .capturing c _ p => if p.begun then none else some c
  | .empty => none
  | .discarding => none
  | .commitWait _ _ _ _ => none
  | .committing _ _ _ => none

/-- The slot after a halt (Tables 4-2 and 5-4). A begun capture places the commit of tap to pointer - 1. -/
def Slot.afterHalt (age : Nat) : Slot → Slot
  | .empty => .empty
  | .staged _ _ => .empty
  | .loading _ => .discarding
  | .loaded _ _ _ => .empty
  | .playing _ _ _ _ => .empty
  | .discarding => .discarding
  | .assigned _ => .empty
  | .capturing c words p =>
    if p.begun then .commitWait c words { first := c.record.tap, last := p.pointer - 1 } age else .empty
  | .commitWait c words range n => .commitWait c words range n
  | .committing c words range => .committing c words range

/-- The returned cues in post order, oldest first (R21). -/
def Lane.returned (ln : Lane) : List HeldCue :=
  match ln.slotA.returned?, ln.slotB.returned? with
  | some x, some y => if x.order ≤ y.order then [x, y] else [y, x]
  | some x, none => [x]
  | none, some y => [y]
  | none, none => []

/-- The begun ACTIVE cue of a play slot with the outcome R81 gives it. -/
def Slot.halted? : Slot → Option (HeldCue × CueOutcome)
  | .playing c _ _ p => if p.begun then some (c, if p.finalShown then .played else .cut) else none
  | _ => none

def Lane.halted? (ln : Lane) : Option (HeldCue × CueOutcome) :=
  match ln.activeSlot with
  | some n => (ln.slot n).halted?
  | none => none

/-- Slots, queue and flags of a lane after a halt that puts it in state `st`. -/
def Lane.stopIn (st : LaneState) (age : Nat) (ln : Lane) : Lane :=
  { ln with state := st, slotA := ln.slotA.afterHalt age, slotB := ln.slotB.afterHalt age,
            queue := ln.returned ++ ln.queue, stopPending := false, awaitingFirstBeat := false,
            pins := ln.quietPins }

/-- The play halt: R79 to R82, with its CUE END ahead of its LANE HALTED. -/
def State.haltPlay (s : State) (l : LaneId) (reason : HaltReason) : State :=
  let ln := s.lane l
  let ids := ln.returned.map fun c => c.record.id
  let s := s.setLane l (ln.stopIn (.halted reason) s.event)
  let s := match ln.halted? with
    | some (c, o) => s.retire l c o
    | none => s
  s.offer (.laneHalted l reason ln.lastCue ids)

/-- A capture lane leaves ENDING when it owes no commit (R100). -/
def State.leaveEnding (s : State) (l : LaneId) : State :=
  let ln := s.lane l
  match ln.state with
  | .ending reason ids =>
    if ln.slotA.owesCommit || ln.slotB.owesCommit then s
    else (s.setLane l { ln with state := .halted reason }).offer (.laneHalted l reason ln.lastCue ids)
  | _ => s

/-- The capture halt (R99); a lane that owes no commit leaves ENDING in the same event. -/
def State.haltCapture (s : State) (l : LaneId) (reason : HaltReason) : State :=
  let ln := s.lane l
  let ids := ln.returned.map fun c => c.record.id
  (s.setLane l (ln.stopIn (.ending reason ids) s.event)).leaveEnding l

/-- One lane's own halt, without halt-together. In IDLE, HALTED, ENDING and RESETTING it has no effect (R78, R101). -/
def State.haltOne (s : State) (l : LaneId) (reason : HaltReason) : State :=
  if (s.lane l).state.canHalt then
    match (s.lane l).config.mode with
    | .play => s.haltPlay l reason
    | .capture => s.haltCapture l reason
  else s

/-- The other RUNNING or STALLED members halt with reason GROUP, in ascending lane order (R125). -/
def State.haltOthers (s : State) (l : LaneId) (g : GroupName) : State :=
  laneOrder.foldl
    (fun s m =>
      if m ≠ l ∧ (s.lane m).config.group = some g ∧ (s.lane m).state.runsOrStalls then s.haltOne m .group
      else s) s

/-- A halt sets off halt-together: group FIRED, halt together YES, reason not GROUP (R125). -/
def State.cascades (s : State) (l : LaneId) (reason : HaltReason) : Option GroupName :=
  match (s.lane l).config.group with
  | some g =>
    if (s.lane l).state.canHalt && (s.group g).haltTogether && decide ((s.group g).state = .fired) &&
        decide (reason ≠ .group) then some g
    else none
  | none => none

/-- A halt of a lane for a cause of section 4.6, with halt-together. -/
def State.halt (s : State) (l : LaneId) (reason : HaltReason) : State :=
  match s.cascades l reason with
  | some g => (s.haltOne l reason).haltOthers l g
  | none => s.haltOne l reason

/-! ## Stalls -/

/-- The event owes a LANE STALL of lane `l`, whatever becomes of the lane in the rest of it (R77; log entry 34). -/
def State.oweStall (s : State) (l : LaneId) (id : Byte) (cause : StallCause) : State :=
  { s with stalls := s.stalls ++ [{ lane := l, cue := id, cause := cause }] }

/-- "If the dry policy acts in the span-end event itself, the LANE STALL with cause UNDERRUN … is not queued" (R68). -/
def State.excuseUnderrun (s : State) (l : LaneId) : State :=
  { s with stalls := s.stalls.filter fun x => !(decide (x.lane = l) && decide (x.cause = .underrun)) }

/-- The notice of an owed LANE STALL. -/
def OwedStall.notice (x : OwedStall) : Notice := .laneStall x.lane x.cue x.cause

/-- The LANE STALLs owed at the end of an event (R77). -/
def State.stallNotices (s : State) : List Notice := s.stalls.map OwedStall.notice

/-- "The LANE STALL follows every CUE END queued in that event" (R77): they are offered at its end. -/
def State.reportStalls (s : State) : State := s.stallNotices.foldl State.offer { s with stalls := [] }

/-- The lane enters STALLED with cause DRY, or changes to it, and reports it (R41, R68, R97). -/
def State.stallDry (s : State) (l : LaneId) (id : Byte) : State :=
  (s.mapLane l fun ln => { ln.quiet with state := .stalled .dry }).oweStall l id .dry

/-- The dry policy (R41, R68, R97): STOP halts with reason END, WAIT stalls DRY. `id` is the cue the notice names (R77). -/
def State.actDry (s : State) (l : LaneId) (id : Byte) : State :=
  match (s.lane l).config.dry with
  | .stop => s.halt l .ended
  | .wait => s.stallDry l id

/-! ## Lane reset (R43, R44) -/

/-- The slot when a reset is taken (R43 steps 1 to 3). -/
def Slot.afterReset : Slot → Slot
  | .loading _ => .discarding
  | .discarding => .discarding
  | .committing _ words range => .committing none words range
  | .empty => .empty
  | .staged _ _ => .empty
  | .loaded _ _ _ => .empty
  | .playing _ _ _ _ => .empty
  | .assigned _ => .empty
  | .capturing _ _ _ => .empty
  | .commitWait _ _ _ _ => .empty

/-- The lane enters RESETTING (R43); the cues go without an outcome (R22). -/
def Lane.enterReset (ln : Lane) : Lane :=
  { ln.quiet with state := .resetting, slotA := ln.slotA.afterReset, slotB := ln.slotB.afterReset,
                  queue := [], stopPending := false, awaitingFirstBeat := false }

/-- A RESETTING lane waits for its operation in flight (R44). -/
def Lane.resetWaits (ln : Lane) : Bool := ln.slotA.holdsReset || ln.slotB.holdsReset

/-- The reset ends: IDLE, counters 0, the remaining items at their reset values; configuration, pins, divider and the last
LCK edge stay (R44, R25, R27; log entry 35). -/
def Lane.endReset (ln : Lane) : Lane :=
  { Lane.reset with config := ln.config, lastWord := ln.config.idleWord, pins := ln.pins,
                    dividerStart := ln.dividerStart, lastEdge := ln.lastEdge }

/-- The request code of LANE RESET (Table 10-6). -/
def codeLaneReset : Byte := 0x23

/-- The entry of the LANE RESET that waits on this lane: a lane in RESETTING refuses a second one (R43). -/
def State.laneResetEntry (s : State) (l : LaneId) : Option Entry :=
  s.link.table.find? fun e => decide (e.code = codeLaneReset) && decide (e.payload = [laneByte l])

/-- A RESETTING lane with nothing in flight becomes IDLE, and the reply to its LANE RESET is handed over (R44). -/
def State.endLaneReset (s : State) (l : LaneId) : State :=
  if (s.lane l).resetWaits then s
  else
    let s := s.mapLane l Lane.endReset
    match s.laneResetEntry l with
    | some e => s.answer e.tag .ok .none
    | none => s

/-! ## A lane after an event that emptied a slot or added a cue -/

/-- Staging follows (R9); then the lane acts by its state: PRIMING may become READY (R33, R90); a play lane stalled
UNDERRUN that holds no cue meets its dry policy, which takes the place of an UNDERRUN of this event (R68); a stalled capture
lane resumes with an ASSIGNED slot or, from OVERRUN with a slot left EMPTY, meets its dry policy (R94, R97); ENDING may be
left (R100); a reset may end (R44). `id` is the cue whose retirement or removal led here (R77, R97). -/
def State.settleLane (s : State) (l : LaneId) (id : Byte) : State :=
  let s := s.mapLane l (Lane.stage s.event)
  let ln := s.lane l
  match ln.state, ln.config.mode with
  | .priming, _ => if ln.firstReady then s.setLane l { ln with state := .ready } else s
  | .stalled .underrun, .play => if ln.heldCount = 0 then (s.excuseUnderrun l).actDry l id else s
  | .stalled cause, .capture =>
    match ln.oldestWhere Slot.isAssigned with
    | some n => s.setLane l (ln.run n)
    | none => if cause = .overrun ∧ ln.emptySlot.isSome then s.actDry l id else s
  | .ending _ _, _ => s.leaveEnding l
  | .resetting, _ => s.endLaneReset l
  | _, _ => s

/-! ## Groups (R120, R124) -/

/-- What R120 gives an OPEN or ARMED group: ARMED with a READY and no PRIMING member. -/
def State.gathered (s : State) (g : GroupName) : GroupState :=
  let states := (s.members g).map fun l => (s.lane l).state
  if states.contains .ready && !states.contains .priming then .armed else .opened

/-- A group's state by its members' states at the end of an event. -/
def State.regroupOne (s : State) (g : GroupName) : State :=
  let st := match (s.group g).state with
    | .opened => s.gathered g
    | .armed => s.gathered g
    | .fired => if (s.members g).any fun l => (s.lane l).state.keepsFired then .fired else .opened
  s.setGroup g { s.group g with state := st }

def State.regroup (s : State) : State := (s.regroupOne .g1).regroupOne .g2

end Sys2Proof.Machine
end

