-- ==== Sys2Proof/Machine/Arbiter.lean ====
section
/-! DEFINITION. The transfer engine: pending claims, ranking by runway, host share, selection and grant (chapter 3). -/

namespace Sys2Proof.Machine

open Sys2Proof

/-! ## Pending claims (R46, R47) -/

/-- A pending lane claim: REFILL of a STAGED slot or COMMIT of a COMMIT WAIT slot. -/
structure LaneClaim where
  lane : LaneId
  slot : SlotName
  cue : HeldCue
  age : Nat
  deriving DecidableEq, Repr

/-- The claim a slot has pending, with its cue and age. -/
def Slot.claim? : Slot → Option (HeldCue × Nat)
  | .staged c age => some (c, age)
  | .commitWait c _ _ age => some (c, age)
  | _ => none

def Lane.claims (l : LaneId) (ln : Lane) : List LaneClaim :=
  (ln.slotA.claim?.toList.map fun x => ⟨l, .a, x.1, x.2⟩) ++
    (ln.slotB.claim?.toList.map fun x => ⟨l, .b, x.1, x.2⟩)

/-- The pending lane claims. -/
def State.laneClaims (s : State) : List LaneClaim := laneOrder.flatMap fun l => (s.lane l).claims l

/-! ## Ranking (R52, R53) -/

/-- Words left of an ACTIVE cue with a repeat count (Table 3-3). -/
def runwayOf (c : Cue) (p : Progress) (reps : Nat) : Nat :=
  (c.last.toNat - p.pointer.toNat + 1) + c.spanLength * (reps - 1)

/-- The runway, or none for a claim of the second class: unbounded or unranked (Table 3-3). -/
def Lane.runway (ln : Lane) : Option Nat :=
  match ln.state with
  | .stalled _ => some 0
  | .running =>
    match ln.activeSlot with
    | none => none
    | some n =>
      match (ln.slot n).cue?, (ln.slot n).progress? with
      | some c, some p =>
        match p.repsLeft with
        | .count k => some (runwayOf c.record p k)
        | .continuous => none
      | _, _ => none
  | _ => none

/-- A claim's rank: class, then runway or age, then lane, then post order; the least is best (R53). -/
structure Rank where
  cls : Nat
  metric : Nat
  lane : Nat
  order : Nat
  deriving DecidableEq, Repr

def Rank.before (x y : Rank) : Bool :=
  if x.cls ≠ y.cls then x.cls < y.cls
  else if x.metric ≠ y.metric then x.metric < y.metric
  else if x.lane ≠ y.lane then x.lane < y.lane
  else x.order < y.order

def State.rank (s : State) (c : LaneClaim) : Rank :=
  match (s.lane c.lane).runway with
  | some n => { cls := 0, metric := n, lane := laneNumber c.lane, order := c.cue.order }
  | none => { cls := 1, metric := c.age, lane := laneNumber c.lane, order := c.cue.order }

/-- The better of two claims; the first where they rank equal. -/
def State.betterClaim (s : State) (x y : LaneClaim) : LaneClaim :=
  if (s.rank y).before (s.rank x) then y else x

/-- The best lane claim (R53). -/
def State.bestClaim (s : State) : Option LaneClaim :=
  match s.laneClaims with
  | [] => none
  | c :: cs => some (cs.foldl s.betterClaim c)

/-! ## Selection (R49, R54) -/

/-- A selected claim. -/
inductive Selected where
  | host (op : HostOp) (waiting : List HostOp)
  | lane (claim : LaneClaim)
  deriving DecidableEq, Repr

/-- The HOST claim when no lane claim is pending or the count is 3; else the best lane claim (R54). -/
def State.choose (s : State) : Option Selected :=
  match s.hostWaiting, s.bestClaim with
  | [], none => none
  | [], some c => some (.lane c)
  | op :: rest, none => some (.host op rest)
  | op :: rest, some c => if Config.hostShare ≤ s.port.laneGrants then some (.host op rest) else some (.lane c)

/-- The port carries the operation from now on. -/
def State.occupy (s : State) (op : Operation) (laneGrants : Nat) : State :=
  { s with port := { inFlight := some { op := op, grantedAt := s.now }, laneGrants := laneGrants } }

/-- The age of the HOST claim formed when the operation ahead of `rest` leaves: this event, or none with none waiting (R46,
Table 3-1). -/
def State.nextHostAge (s : State) (rest : List HostOp) : Option Nat := if rest.isEmpty then none else some s.event

/-- The grant of the HOST claim; the next waiting operation becomes the HOST claim (R50, R55). -/
def State.grantHost (s : State) (op : HostOp) (rest : List HostOp) (res : Resolution) : State :=
  { s with hostWaiting := rest, hostClaimAge := s.nextHostAge rest }.occupy (.host op res) 0

/-- The HOST claim's alias is unbound: the operation leaves with its UNBOUND reply; with none waiting the count becomes 0
(R58). -/
def State.dropHost (s : State) (op : HostOp) (rest : List HostOp) : State :=
  let count := if rest.isEmpty then 0 else s.port.laneGrants
  State.answer { s with
      hostWaiting := rest, hostClaimAge := s.nextHostAge rest
      port := { s.port with laneGrants := count } } op.tag .unbound .none

/-- The slot after the grant of its claim: LOADING or COMMITTING (R50). -/
def Slot.granted : Slot → Slot
  | .staged c _ => .loading c
  | .commitWait c words range _ => .committing (some c) words range
  | x => x

/-- The operation a lane claim becomes: a refill from STAGED, a commit from COMMIT WAIT. -/
def LaneClaim.operation (c : LaneClaim) (from' : Slot) (res : Resolution) : Operation :=
  match from' with
  | .commitWait _ _ _ _ => .commit c.lane c.slot res c.cue.record.half
  | _ => .refill c.lane c.slot res

/-- The grant of a lane claim; the count rises by 1 while there is a HOST claim (R50, R55). -/
def State.grantLane (s : State) (c : LaneClaim) (res : Resolution) : State :=
  let from' := (s.lane c.lane).slot c.slot
  let count := if s.hostWaiting.isEmpty then s.port.laneGrants else s.port.laneGrants + 1
  (s.mapLane c.lane fun ln => ln.setSlot c.slot from'.granted).occupy (c.operation from' res) count

/-- The claim's alias is unbound: its cue is retired UNBOUND, its slot becomes EMPTY, and the lane acts on it (R57). -/
def State.dropClaim (s : State) (c : LaneClaim) : State :=
  ((s.mapLane c.lane fun ln => ln.setSlot c.slot .empty).retire c.lane c.cue .unbound).settleLane
    c.lane c.cue.record.id

/-- Selections until a grant or an empty pending set; each turn without a grant ends one held cue or host operation, so
`fuel` above their number is never used up. -/
def State.selectLoop : Nat → State → State
  | 0, s => s
  | fuel + 1, s =>
    match s.choose with
    | none => s
    | some (.host op rest) =>
      match s.resolve op.ref with
      | some res => s.grantHost op rest res
      | none => (s.dropHost op rest).selectLoop fuel
    | some (.lane c) =>
      match s.resolve c.cue.record.ref with
      | some res => s.grantLane c res
      | none => (s.dropClaim c).selectLoop fuel

/-- What bounds the turns of one selection event. -/
def State.selectFuel (s : State) : Nat :=
  (laneOrder.map fun l => (s.lane l).heldCount).sum + s.hostWaiting.length + 1

/-- The selection of R49, where the port is FREE. -/
def State.select (s : State) : State :=
  match s.port.inFlight with
  | some _ => s
  | none => s.selectLoop s.selectFuel

/-- The end of an event in which claims may have been placed and lanes may have changed state: selection (R49), the LANE
STALLs owed, behind every CUE END (R77), then the groups by their members' states "as they stand at the end of that event"
(R120, R124; log entries 24, 25, 34). -/
def State.endEvent (s : State) : State := s.select.reportStalls.regroup

/-- Port time (Table 3-2). -/
def HostOp.halves (op : HostOp) : Nat :=
  match op.kind with
  | .write start words => if start ≤ 255 ∧ 256 ≤ start + words.length - 1 then 2 else 1
  | .read start count => if start ≤ 255 ∧ 256 ≤ start + count - 1 then 2 else 1
  | .fill first final _ => if first ≤ 255 ∧ 256 ≤ final then 2 else 1

def Operation.duration : Operation → Nat
  | .refill _ _ _ => Config.halfNs
  | .commit _ _ _ _ => Config.halfNs
  | .host op _ => op.halves * Config.halfNs
  | .clear => Config.clearNs

end Sys2Proof.Machine
end

