-- ==== Sys2Proof/Machine/Beats.lean ====
section
/-! DEFINITION. What a beat does in each lane state and mode (R28), the fire of a group, and the two beat events. -/

namespace Sys2Proof.Machine

open Sys2Proof

/-! ## Play lanes (R37 to R41, R67 to R76) -/

/-- The ACTIVE slot's cue has its last repetition, or any repetition of a CONTINUOUS one (R81). -/
def Reps.isFinal : Reps → Bool
  | .count n => n ≤ 1
  | .continuous => true

/-- The end of an underrun: with no held cue the dry policy acts in its place (R68), else the event owes a LANE STALL with the
cue whose span end underran (R77). -/
def State.reportUnderrun (s : State) (l : LaneId) (spanEnded lastRetired : Byte) : State :=
  if (s.lane l).heldCount = 0 then s.actDry l lastRetired else s.oweStall l spanEnded .underrun

/-- HOLD (R69): the last word stays on LD, staging follows. -/
def State.underrunHold (s : State) (l : LaneId) (c : HeldCue) : State :=
  (s.mapLane l fun ln => { ln.holdWord with state := .stalled .underrun }.stage s.event).reportUnderrun
    l c.record.id c.record.id

/-- The late cue of SKIP: the cue of a STAGED or LOADING other slot (R72). -/
def Slot.late? : Slot → Option HeldCue
  | .staged c _ => some c
  | .loading c => some c
  | _ => none

/-- Gives a late cue up: STAGED becomes EMPTY, LOADING becomes DISCARDING, counter and CUE END (R72, R76). -/
def State.giveUpLate (s : State) (l : LaneId) (n : SlotName) (late : HeldCue) : State :=
  (s.mapLane l fun ln => (ln.setSlot n ((ln.slot n).afterHalt s.event)).countLateCue).retire l late .late

/-- The idle word is driven and the lane stalls, then staging follows (R72). -/
def Lane.skipStall (age : Nat) (ln : Lane) : Lane := { ln.quiet with state := .stalled .underrun }.stage age

/-- SKIP (R72): the late cue is given up, the lane stalls, staging follows. -/
def State.underrunSkip (s : State) (l : LaneId) (n : SlotName) (c : HeldCue) : State :=
  match ((s.lane l).slot n.other).late? with
  | some late =>
    ((s.giveUpLate l n.other late).mapLane l (Lane.skipStall s.event)).reportUnderrun l c.record.id late.record.id
  | none => (s.mapLane l (Lane.skipStall s.event)).reportUnderrun l c.record.id c.record.id

/-- The stall policy at an underrun (R67, Table 4-1). DROP is no play policy (R23). -/
def State.underrun (s : State) (l : LaneId) (n : SlotName) (c : HeldCue) : State :=
  match (s.lane l).config.stall with
  | .halt => s.halt l .underrun
  | .skip => s.underrunSkip l n c
  | .hold => s.underrunHold l c
  | .drop => s.underrunHold l c

/-- The ACTIVE cue is retired PLAYED and its slot becomes EMPTY (R39, R40). -/
def State.finishCue (s : State) (l : LaneId) (n : SlotName) (c : HeldCue) : State :=
  (s.mapLane l fun ln => ln.setSlot n .empty).retire l c .played

/-- The other slot becomes ACTIVE and staging into the emptied slot follows (R39 case 2, R40). -/
def State.switchTo (s : State) (l : LaneId) (n : SlotName) : State :=
  s.mapLane l fun ln => (ln.activate n).stage s.event

/-- The span end of a play cue in slot `n` (R39, Table 2-7). -/
def State.spanEnd (s : State) (l : LaneId) (n : SlotName) (c : HeldCue) : State :=
  let s := s.finishCue l n c
  let other := (s.lane l).slot n.other
  if c.record.haltAfter then s.halt l .ended
  else if other.isLoaded then s.switchTo l n.other
  else if other.isAwaited || (other.isEmpty && !(s.lane l).queue.isEmpty) then s.underrun l n c
  else s.actDry l c.record.id

/-- The end of a repetition of a CONTINUOUS cue (R40). -/
def State.endContinuous (s : State) (l : LaneId) (n : SlotName) (c : HeldCue) (restart : Slot) : State :=
  if ((s.lane l).slot n.other).isLoaded then
    let s := s.finishCue l n c
    if c.record.haltAfter then s.halt l .ended else s.switchTo l n.other
  else s.mapLane l fun ln => ln.setSlot n restart

/-- A beat of a play lane with slot `n` ACTIVE (R37, R38). CUE START stands before the CUE END of a one-word cue (log entry
36). -/
def State.presentWord (s : State) (l : LaneId) (n : SlotName) (c : HeldCue) (words : List Byte)
    (res : Resolution) (p : Progress) : State :=
  let w := wordAt c.record.tap words p.pointer
  let atLast := !decide (p.pointer.toNat < c.record.last.toNat)
  let p' := { p with begun := true, finalShown := atLast && p.repsLeft.isFinal }
  let s := s.mapLane l fun ln =>
    { (ln.present w (!p.begun && c.record.mark)).setSlot n (.playing c words res p') with
      awaitingFirstBeat := false }
  let s := if !p.begun && c.record.notifyStart then
      s.offer (.cueStart l c.record.id (some res.row) res.generation)
    else s
  if !atLast then
    s.mapLane l fun ln => ln.setSlot n (.playing c words res { p' with pointer := p.pointer + 1 })
  else if (s.lane l).stopPending then s.halt l .request
  else
    match p.repsLeft with
    | .count k =>
      if 1 < k then
        s.mapLane l fun ln =>
          ln.setSlot n (.playing c words res { p' with pointer := c.record.tap, repsLeft := .count (k - 1) })
      else s.spanEnd l n c
    | .continuous => s.endContinuous l n c (.playing c words res { p' with pointer := c.record.tap })

/-- The play beat of a RUNNING lane (R37). -/
def State.playBeat (s : State) (l : LaneId) : State :=
  match (s.lane l).activeSlot with
  | none => s
  | some n =>
    match (s.lane l).slot n with
    | .playing c words res p => s.presentWord l n c words res p
    | _ => s

/-- The slot a stalled play lane resumes with at a beat: under SKIP the LOADED slot with the older cue (R73); under HOLD
and in DRY the slot of the oldest held cue, when LOADED (R70, R41). -/
def Lane.resumeSlot (ln : Lane) (cause : StallCause) : Option SlotName :=
  if ln.config.stall = .skip ∧ cause = .underrun then ln.oldestWhere Slot.isLoaded
  else ln.oldestSlot.filter fun n => (ln.slot n).isLoaded

/-- A beat of a STALLED play lane: resumption with the tap word, or a stall beat for cause UNDERRUN (R41, R70, R73,
R75). -/
def State.stalledPlayBeat (s : State) (l : LaneId) (cause : StallCause) : State :=
  match (s.lane l).resumeSlot cause with
  | some n => (s.mapLane l (Lane.run n)).playBeat l
  | none => if cause = .underrun then s.mapLane l Lane.countStallBeat else s

/-! ## Capture lanes (R91 to R97) -/

/-- What a capture cue's CUE START carries: the ROW, or the alias's binding as it stands at this beat (R91). -/
def State.captureStart (s : State) (l : LaneId) (c : Cue) : Notice :=
  match c.ref with
  | .row r => .cueStart l c.id (some r) none
  | .aliased n => .cueStart l c.id (s.aliasAt n).row (some (s.aliasAt n).generation)

/-- OVERRUN (R94, R95): DROP stalls the lane, HALT begins a capture halt. -/
def State.overrun (s : State) (l : LaneId) (c : HeldCue) : State :=
  match (s.lane l).config.stall with
  | .halt => s.halt l .overrun
  | _ =>
    (s.mapLane l fun ln => { ln.quiet with state := .stalled .overrun }).oweStall l c.record.id .overrun

/-- The span end of a capture cue in slot `n`: the commit of tap to last is placed, then Table 5-3 (R92). -/
def State.captureSpanEnd (s : State) (l : LaneId) (n : SlotName) (c : HeldCue) (words : List Byte) : State :=
  let s := s.mapLane l fun ln =>
    ln.setSlot n (.commitWait c words { first := c.record.tap, last := c.record.last } s.event)
  let ln := s.lane l
  if ln.stopPending then s.halt l .request
  else if c.record.haltAfter then s.halt l .ended
  else if (ln.slot n.other).isAssigned then s.mapLane l (Lane.activate n.other)
  else if (ln.slot n.other).owesCommit then s.overrun l c
  else if !ln.queue.isEmpty then s.mapLane l fun ln => (ln.stageHead s.event).activate n.other
  else s.actDry l c.record.id

/-- A qualified word of a RUNNING capture lane with slot `n` ACTIVE (R91; log entry 36). -/
def State.captureWord (s : State) (l : LaneId) (w : Byte) (n : SlotName) (c : HeldCue) (words : List Byte)
    (p : Progress) : State :=
  let words := putWord c.record.tap words p.pointer w
  let p' := { p with begun := true }
  let s := s.mapLane l fun ln =>
    (ln.drivesMark (!p.begun && c.record.mark)).setSlot n (.capturing c words p')
  let s := if !p.begun && c.record.notifyStart then s.offer (s.captureStart l c.record) else s
  if p.pointer.toNat < c.record.last.toNat then
    s.mapLane l fun ln => ln.setSlot n (.capturing c words { p' with pointer := p.pointer + 1 })
  else s.captureSpanEnd l n c words

/-- A beat of a RUNNING capture lane; with LQV low it takes no word (R91). -/
def State.captureBeat (s : State) (l : LaneId) (ld : Byte) (lqv : Bool) : State :=
  let s := s.mapLane l fun ln => { ln.drivesMark false with awaitingFirstBeat := false }
  if lqv then
    match (s.lane l).activeSlot with
    | none => s
    | some n =>
      match (s.lane l).slot n with
      | .capturing c words p => s.captureWord l ld n c words p
      | _ => s
  else s

/-- A beat of a STALLED capture lane: a qualified word is dropped and counted in OVERRUN, discarded in DRY (R94, R96,
R97). -/
def State.stalledCaptureBeat (s : State) (l : LaneId) (lqv : Bool) (cause : StallCause) : State :=
  if lqv ∧ cause = .overrun then s.mapLane l Lane.countDroppedWord else s

/-! ## The beat (R28) -/

def State.runningBeat (s : State) (l : LaneId) (ld : Byte) (lqv : Bool) : State :=
  match (s.lane l).config.mode with
  | .play => s.playBeat l
  | .capture => s.captureBeat l ld lqv

/-- A READY ungrouped lane becomes RUNNING at its beat, which is its first; a grouped one lets the beat pass (R34). -/
def State.readyBeat (s : State) (l : LaneId) (ld : Byte) (lqv : Bool) : State :=
  match (s.lane l).config.group, (s.lane l).oldestSlot with
  | none, some n => (s.mapLane l (Lane.run n)).runningBeat l ld lqv
  | _, _ => s

/-- One beat of a lane, with the pins as sampled at it. -/
def State.beat (s : State) (l : LaneId) (ld : Byte) (lqv : Bool) : State :=
  match (s.lane l).state with
  | .ready => s.readyBeat l ld lqv
  | .running => s.runningBeat l ld lqv
  | .stalled cause =>
    match (s.lane l).config.mode with
    | .play => s.stalledPlayBeat l cause
    | .capture => s.stalledCaptureBeat l lqv cause
  | .idle => s
  | .priming => s
  | .ending _ _ => s
  | .halted _ => s
  | .resetting => s

/-- DIVIDER_EXPIRY (R26): the count begins again from zero, and an INTERNAL lane has a beat; an EXTERNAL lane ignores its
divider (R27). -/
def execDividerExpiry (l : LaneId) (ld : Byte) (lqv : Bool) (s : State) : Host.Outcome State Fault Refusal :=
  s.happen fun s =>
    let s := s.mapLane l fun ln => { ln with dividerStart := s.now }
    match (s.lane l).config.clock with
    | .internal _ => (s.beat l ld lqv).endEvent
    | .external => s

/-- At `moment`, at least 50 ns have passed since the last edge the lane took as a beat (R27). -/
def Lane.takesEdge (ln : Lane) (moment : Nat) : Bool :=
  match ln.lastEdge with
  | none => true
  | some t => t + Config.edgeNs ≤ moment

/-- LCK_EDGE (R27): a beat of an EXTERNAL lane when at least 50 ns have passed since the last edge it took as a beat; a
refused edge leaves that moment as it was, and an INTERNAL lane takes no edge. The edge falls `afterNs` after the time of the
state (log entry 35). -/
def execLckEdge (l : LaneId) (afterNs : Nat) (ld : Byte) (lqv : Bool) (s : State) : Host.Outcome State Fault Refusal :=
  s.happen fun s =>
    match (s.lane l).config.clock with
    | .internal _ => s
    | .external =>
      if (s.lane l).takesEdge (s.now + afterNs) then
        ((s.mapLane l fun ln => { ln with lastEdge := some (s.now + afterNs) }).beat l ld lqv).endEvent
      else s

end Sys2Proof.Machine
end

