-- ==== Sys2Proof/Machine/Operands.lean ====
section
/-! DEFINITION. The operand forms: what the payload bytes of each request carry (Tables 10-3, 10-4, 10-6), with the
length check and the field checks of R145 and R158. -/

namespace Sys2Proof.Machine

open Sys2Proof

/-- What reading a payload gives: checks 2 and 3 of Table 9-4, or the fields. -/
inductive Parsed (α : Type) where
  | malformed
  | badField
  | fields (x : α)
  deriving DecidableEq, Repr

/-- BAD FIELD where a field does not read. -/
def Parsed.ofOption {α : Type} : Option α → Parsed α
  | some x => .fields x
  | none => .badField

/-! ## Single fields -/

def readLane (b : Byte) : Option LaneId :=
  match b.toNat with
  | 0 => some .l0
  | 1 => some .l1
  | 2 => some .l2
  | 3 => some .l3
  | _ => none

def readGroup (b : Byte) : Option GroupName :=
  match b.toNat with
  | 1 => some .g1
  | 2 => some .g2
  | _ => none

/-- The group field of LANE CONFIG, which also takes 00h for NONE. -/
def readMembership (b : Byte) : Option (Option GroupName) :=
  match b.toNat with
  | 0 => some none
  | 1 => some (some .g1)
  | 2 => some (some .g2)
  | _ => none

/-- A field of 00h or 01h: clear, halt together. -/
def readBit (b : Byte) : Option Bool :=
  match b.toNat with
  | 0 => some false
  | 1 => some true
  | _ => none

def readHalf (b : Byte) : Option Half :=
  match b.toNat with
  | 0 => some .lower
  | 1 => some .upper
  | _ => none

def readRow (n : Nat) : Option Row := if h : n < 2048 then some ⟨n, h⟩ else none

def readAlias (n : Nat) : Option AliasNo := if h : n < 64 then some ⟨n, h⟩ else none

/-- Table 10-3: kind, number. -/
def readRowRef (kind lo hi : Byte) : Option RowRef :=
  match kind.toNat with
  | 0 => (readRow (pairNat lo hi)).map .row
  | 1 => (readAlias (pairNat lo hi)).map .aliased
  | _ => none

/-- 0001h to 00FEh a count, 8000h CONTINUOUS (Table 10-4). -/
def readReps (n : Nat) : Option Reps :=
  if 1 ≤ n ∧ n ≤ 254 then some (.count n)
  else if n = 0x8000 then some .continuous
  else none

def readTrigger (b : Byte) : Option TriggerSource :=
  match b.toNat with
  | 0 => some .request
  | 1 => some .pinRise
  | 2 => some .pinFall
  | _ => none

/-- 00h is the absent stall policy (R158). -/
def readStall (b : Byte) : Option (Option StallPolicy) :=
  match b.toNat with
  | 0 => some none
  | 1 => some (some .hold)
  | 2 => some (some .skip)
  | 3 => some (some .halt)
  | 4 => some (some .drop)
  | _ => none

/-! ## The cue record (Table 10-4, R5) -/

/-- The cue of ten bytes. Flags: bit 0 NOTIFY START, 1 NOTIFY END, 2 HALT AFTER, 3 MARK, 4 LAST PRESENT, 5 to 7 zero. A
clear LAST PRESENT leaves the last byte unread and keeps last 255 (R1, R158); a set one needs last not below tap (R5). -/
def readCue : List Byte → Option Cue
  | [id, kind, lo, hi, half, tap, last, repLo, repHi, flags] =>
    match readRowRef kind lo hi, readHalf half, readReps (pairNat repLo repHi) with
    | some ref, some h, some reps =>
      let last' : Byte := if flags.getLsbD 4 then last else 255
      if flags.toNat < 32 ∧ tap.toNat ≤ last'.toNat then
        some { id := id, ref := ref, half := h, tap := tap, last := last', reps := reps,
               notifyStart := flags.getLsbD 0, notifyEnd := flags.getLsbD 1,
               haltAfter := flags.getLsbD 2, mark := flags.getLsbD 3 }
      else none
    | _, _, _ => none
  | _ => none

/-- `n` cue records one after another. -/
def readCues : Nat → List Byte → Option (List Cue)
  | 0, _ => some []
  | n + 1, bs =>
    match readCue (bs.take 10), readCues n (bs.drop 10) with
    | some c, some cs => some (c :: cs)
    | _, _ => none

/-! ## Request payloads (Table 10-6) -/

/-- CUE POST: lane, count c, c records; length 2 + 10c by the count field as received (R158). -/
def parseCuePost : List Byte → Parsed (LaneId × List Cue)
  | lane :: count :: rest =>
    if rest.length ≠ 10 * count.toNat then .malformed
    else if count.toNat < 1 ∨ 8 < count.toNat then .badField
    else
      match readLane lane, readCues count.toNat rest with
      | some l, some cs => .fields (l, cs)
      | _, _ => .badField
  | _ => .malformed

/-- A request of one lane byte. -/
def parseLane : List Byte → Parsed LaneId
  | [lane] => .ofOption (readLane lane)
  | _ => .malformed

/-- The fields of LANE CONFIG; an absent stall policy is `none` (R23). -/
structure ConfigRequest where
  lane : LaneId
  mode : Mode
  clock : ClockSource
  idleWord : Byte
  stall : Option StallPolicy
  dry : DryPolicy
  group : Option GroupName
  deriving DecidableEq, Repr

def readMode (b : Byte) : Option Mode :=
  match b.toNat with
  | 0 => some .play
  | 1 => some .capture
  | _ => none

/-- INTERNAL needs a divider of 2 to 65535; an EXTERNAL clock's divider is not read (R158). -/
def readClock (b : Byte) (divider : Nat) : Option ClockSource :=
  match b.toNat with
  | 0 => if 2 ≤ divider then some (.internal divider) else none
  | 1 => some .external
  | _ => none

def readDry (b : Byte) : Option DryPolicy :=
  match b.toNat with
  | 0 => some .stop
  | 1 => some .wait
  | _ => none

def parseLaneConfig : List Byte → Parsed ConfigRequest
  | [lane, mode, clock, divLo, divHi, idle, stall, dry, group] =>
    match readLane lane, readMode mode, readClock clock (pairNat divLo divHi), readStall stall,
        readDry dry, readMembership group with
    | some l, some m, some c, some st, some d, some g =>
      .fields { lane := l, mode := m, clock := c, idleWord := idle, stall := st, dry := d, group := g }
    | _, _, _, _, _, _ => .badField
  | _ => .malformed

/-- LANE STOP's mode. -/
inductive StopMode where
  | now | atEnd
  deriving DecidableEq, Repr

def readStop (b : Byte) : Option StopMode :=
  match b.toNat with
  | 0 => some .now
  | 1 => some .atEnd
  | _ => none

def parseLaneStop : List Byte → Parsed (LaneId × StopMode)
  | [lane, mode] =>
    match readLane lane, readStop mode with
    | some l, some m => .fields (l, m)
    | _, _ => .badField
  | _ => .malformed

def parseLaneStatus : List Byte → Parsed (LaneId × Bool)
  | [lane, clear] =>
    match readLane lane, readBit clear with
    | some l, some c => .fields (l, c)
    | _, _ => .badField
  | _ => .malformed

/-- A range of `count` columns from `start` lies within one row (R109, R110). -/
def rangeInRow (start count : Nat) : Bool := 1 ≤ count && count ≤ 512 && start + count ≤ 512

/-- ROW WRITE: row reference, start, count k, k words; length 7 + k (R109, R158). -/
def parseRowWrite : List Byte → Parsed (RowRef × HostKind)
  | kind :: lo :: hi :: sLo :: sHi :: kLo :: kHi :: words =>
    if words.length ≠ pairNat kLo kHi then .malformed
    else
      match readRowRef kind lo hi, rangeInRow (pairNat sLo sHi) (pairNat kLo kHi) with
      | some ref, true => .fields (ref, .write (pairNat sLo sHi) words)
      | _, _ => .badField
  | _ => .malformed

def parseRowRead : List Byte → Parsed (RowRef × HostKind)
  | [kind, lo, hi, sLo, sHi, kLo, kHi] =>
    match readRowRef kind lo hi, rangeInRow (pairNat sLo sHi) (pairNat kLo kHi) with
    | some ref, true => .fields (ref, .read (pairNat sLo sHi) (pairNat kLo kHi))
    | _, _ => .badField
  | _ => .malformed

/-- ROW FILL: first and final column 0 to 511, final not below first (R111). -/
def parseRowFill : List Byte → Parsed (RowRef × HostKind)
  | [kind, lo, hi, fLo, fHi, tLo, tHi, word] =>
    match readRowRef kind lo hi,
        decide (pairNat fLo fHi ≤ pairNat tLo tHi ∧ pairNat tLo tHi ≤ 511) with
    | some ref, true => .fields (ref, .fill (pairNat fLo fHi) (pairNat tLo tHi) word)
    | _, _ => .badField
  | _ => .malformed

def parseAliasBind : List Byte → Parsed (AliasNo × Row)
  | [number, rLo, rHi] =>
    match readAlias number.toNat, readRow (pairNat rLo rHi) with
    | some n, some r => .fields (n, r)
    | _, _ => .badField
  | _ => .malformed

def parseAlias : List Byte → Parsed AliasNo
  | [number] => .ofOption (readAlias number.toNat)
  | _ => .malformed

def parseGroupConfig : List Byte → Parsed (GroupName × TriggerSource × Bool)
  | [group, trigger, together] =>
    match readGroup group, readTrigger trigger, readBit together with
    | some g, some t, some h => .fields (g, t, h)
    | _, _, _ => .badField
  | _ => .malformed

def parseGroup : List Byte → Parsed GroupName
  | [group] => .ofOption (readGroup group)
  | _ => .malformed

/-- A request without fields. -/
def parseNothing : List Byte → Parsed Unit
  | [] => .fields ()
  | _ => .malformed

/-- ECHO accepts every length and any bytes (R150, R158). -/
def parseEcho (bytes : List Byte) : Parsed (List Byte) := .fields bytes

def parseClear : List Byte → Parsed Bool
  | [clear] => .ofOption (readBit clear)
  | _ => .malformed

end Sys2Proof.Machine
end

