-- ==== Sys2Proof/Machine/Requests.lean ====
section
/-! DEFINITION. The common path of a request frame: the receiver's discard, arrival at the open request table, and dispatch
(R142, R144 to R146). -/

namespace Sys2Proof.Machine

open Sys2Proof

/-- The idle time inside a frame that discards it: 64, 32, 16 or 8 µs at the four rates (Table 9-3). -/
def LinkRate.idleNs (r : LinkRate) : Nat := Config.idleBits * r.bitNs

/-- The class of a discard (Table 9-3). -/
def discardClass : DiscardCase → LinkErrorKind
  | .oversize => .oversize
  | .characterFault => .framing
  | .crcMismatch => .crc
  | .wrongKind => .framing
  | .ackLength => .framing

/-- The receiver looks for C3h again; the block of a character fault is set or lifted as given (R140, R141). -/
def State.hunt (s : State) (lineBlocked : Bool) : State :=
  { s with link := { s.link with receiver := { Receiver.hunting with lineBlocked := lineBlocked } } }

/-- A LINK ERROR is offered only while none is held (R136). -/
def State.offerLinkError (s : State) (kind : LinkErrorKind) : State :=
  if s.notices.holdsLinkError then s else s.offer (.linkError kind)

/-- A discard: the class counter rises, LINK ERROR is offered, the receiver is HUNTING (R142). -/
def State.discard (s : State) (kind : LinkErrorKind) (lineBlocked : Bool) : State :=
  ({ s with link := s.link.countDiscard kind }.offerLinkError kind).hunt lineBlocked

/-- What serves an entry once it is made. -/
abbrev Service := Entry → State → State

/-- Dispatch by the checks of R145 that the payload decides, then the owner (Table 9-4). -/
def dispatchTo {α : Type} (parse : List Byte → Parsed α) (owner : Entry → α → State → State) : Service :=
  fun e s =>
    match parse e.payload with
    | .malformed => s.answer e.tag .malformed .none
    | .badField => s.answer e.tag .badField .none
    | .fields x => owner e x (s.handToOwner e.tag)

/-- A valid request's arrival, judged in the order of R144, and its dispatch in the same event. -/
def State.arrive (s : State) (tag code : Byte) (payload : List Byte) (serve : Service) : State :=
  if s.link.deviceReset.isSome then s.refuse tag code .notReady
  else if Config.tablePlaces ≤ s.placesHeld then s.countNoRoom.refuse tag code .noRoom
  else if (s.entryOf tag).isSome then s.refuse tag code .tagInUse
  else
    let e : Entry := { tag := tag, code := code, payload := payload, state := .received }
    serve e { s with link := { s.link with table := s.link.table ++ [e] } }

/-- A whole request frame reaches its end (R143): the receiver is HUNTING and the request arrives. A payload over 528 bytes
is no frame's: its length field is discarded OVERSIZE (R142; log entry 9). -/
def State.receiveRequest (s : State) (tag code : Byte) (payload : List Byte) (serve : Service) : State :=
  if payload.length ≤ Config.maxPayload then (s.hunt false).arrive tag code payload serve
  else s.discard .oversize false

end Sys2Proof.Machine
end

