-- ==== Sys2Proof/Machine/CueRequests.lean ====
section
/-! DEFINITION. CUE POST, CUE FLUSH and CUE LIST (chapter 1). -/

namespace Sys2Proof.Machine

open Sys2Proof

/-! ## CUE POST (R11 to R13) -/

/-- RESETTING and ENDING refuse a post (R11). -/
def LaneState.takesPost : LaneState → Bool
  | .resetting => false
  | .ending _ _ => false
  | _ => true

/-- A capture lane accepts repeat 1 only (R87). -/
def Cue.suits (c : Cue) : Mode → Bool
  | .play => true
  | .capture => decide (c.reps = .count 1)

/-- Checks 3 to 6 of Table 1-9, in order; none when all pass. -/
def Lane.postRefusal (ln : Lane) (cues : List Cue) : Option Status :=
  let ids := cues.map fun c => c.id
  if !ln.state.takesPost then some .wrongState
  else if !cues.all (fun c => c.suits ln.config.mode) then some .badField
  else if !decide ids.Nodup || ids.any (fun i => ln.heldIds.contains i) then some .duplicateCue
  else if Config.maxHeld < ln.heldCount + cues.length then some .queueFull
  else none

/-- The records join the tail in batch order with tallies 0 and the next places in post order (R1, R8, R13). -/
def Lane.enqueue (ln : Lane) : List Cue → Lane
  | [] => ln
  | c :: cs =>
    Lane.enqueue
      { ln with queue := ln.queue ++ [{ record := c, order := ln.nextOrder, stallTally := 0, dropTally := 0 }],
                nextOrder := ln.nextOrder + 1 } cs

def ownCuePost (e : Entry) (x : LaneId × List Cue) (s : State) : State :=
  match (s.lane x.1).postRefusal x.2 with
  | some status => s.answer e.tag status .none
  | none =>
    let s := s.mapLane x.1 fun ln => ln.enqueue x.2
    ((s.settleLane x.1 ((s.lane x.1).lastCue.getD 0)).answer e.tag .ok .none).endEvent

def serveCuePost : Service := dispatchTo parseCuePost ownCuePost

/-- CUE_POST (R13). -/
def execCuePost (tag : Byte) (payload : List Byte) (s : State) : Host.Outcome State Fault Refusal :=
  s.happen fun s => s.receiveRequest tag 0x10 payload serveCuePost

/-! ## CUE FLUSH (R15) -/

/-- Retires cues FLUSHED, oldest first. -/
def State.retireFlushed (s : State) (l : LaneId) : List HeldCue → State
  | [] => s
  | c :: cs => (s.retire l c .flushed).retireFlushed l cs

def ownCueFlush (e : Entry) (l : LaneId) (s : State) : State :=
  if (s.lane l).state = .resetting then s.answer e.tag .wrongState .none
  else
    let cues := (s.lane l).queue
    ((s.mapLane l fun ln => { ln with queue := [] }).retireFlushed l cues).answer e.tag .ok (.flushed cues.length)

def serveCueFlush : Service := dispatchTo parseLane ownCueFlush

/-- CUE_FLUSH (R15). -/
def execCueFlush (tag : Byte) (payload : List Byte) (s : State) : Host.Outcome State Fault Refusal :=
  s.happen fun s => s.receiveRequest tag 0x11 payload serveCueFlush

/-! ## CUE LIST (R17) -/

/-- A slot as reports show it: state, and the cue id when a cue is assigned (R17, R159). -/
def Slot.report (x : Slot) : SlotReport := { status := x.status, cue := x.cue?.map fun c => c.record.id }

def Lane.cueList (ln : Lane) : CueListReport :=
  { state := ln.state, active := ln.activeSlot, slotA := ln.slotA.report, slotB := ln.slotB.report,
    waiting := ln.queue.map fun c => c.record.id }

def ownCueList (e : Entry) (l : LaneId) (s : State) : State :=
  if (s.lane l).state = .resetting then s.answer e.tag .wrongState .none
  else s.answer e.tag .ok (.cueList (s.lane l).cueList)

def serveCueList : Service := dispatchTo parseLane ownCueList

/-- CUE_LIST (R17). -/
def execCueList (tag : Byte) (payload : List Byte) (s : State) : Host.Outcome State Fault Refusal :=
  s.happen fun s => s.receiveRequest tag 0x12 payload serveCueList

end Sys2Proof.Machine
end

