-- ==== Sys2Proof/Machine/LaneRequests.lean ====
section
/-! DEFINITION. LANE CONFIG, START, STOP, RESET and STATUS (chapters 2 and 5). -/

namespace Sys2Proof.Machine

open Sys2Proof

/-! ## LANE CONFIG (R23, R24, R86) -/

/-- The stall policy a mode accepts, with its default for an absent field; none where it does not suit (R23, R86). -/
def stallPolicyFor (m : Mode) (p : Option StallPolicy) : Option StallPolicy :=
  match m, p with
  | .play, none => some .hold
  | .play, some .hold => some .hold
  | .play, some .skip => some .skip
  | .play, some .halt => some .halt
  | .play, some .drop => none
  | .capture, none => some .drop
  | .capture, some .drop => some .drop
  | .capture, some .halt => some .halt
  | .capture, some .hold => none
  | .capture, some .skip => none

/-- Checks 3 and 4 of R23. -/
def Lane.takesConfig (ln : Lane) (m : Mode) : Bool :=
  ln.state.isStopped &&
    (decide (m = ln.config.mode) ||
      (decide (ln.heldCount = 0) && !ln.slotA.isDiscarding && !ln.slotB.isDiscarding))

/-- The effects of an accepted configuration (R24, R25, R26): pins, last word, divider restart. -/
def Lane.configure (ln : Lane) (c : LaneConfig) (now : Nat) : Lane :=
  { { ln with config := c }.quiet with lastWord := c.idleWord, dividerStart := now }

def ownLaneConfig (e : Entry) (r : ConfigRequest) (s : State) : State :=
  if !(s.lane r.lane).takesConfig r.mode then s.answer e.tag .wrongState .none
  else
    match stallPolicyFor r.mode r.stall with
    | none => s.answer e.tag .badField .none
    | some p =>
      (s.mapLane r.lane fun ln => ln.configure
        { mode := r.mode, clock := r.clock, idleWord := r.idleWord, stall := p, dry := r.dry, group := r.group }
        s.now).answer e.tag .ok .none

def serveLaneConfig : Service := dispatchTo parseLaneConfig ownLaneConfig

/-- LANE_CONFIG (R23). -/
def execLaneConfig (tag : Byte) (payload : List Byte) (s : State) : Host.Outcome State Fault Refusal :=
  s.happen fun s => s.receiveRequest tag 0x20 payload serveLaneConfig

/-! ## LANE START (R31, R32, R90) -/

/-- The lane's group is FIRED. -/
def State.groupFired (s : State) (l : LaneId) : Bool :=
  match (s.lane l).config.group with
  | some g => decide ((s.group g).state = .fired)
  | none => false

/-- Entry to PRIMING (R32). -/
def Lane.prime (ln : Lane) : Lane :=
  { ln.quiet with state := .priming, lastCue := none, stopPending := false, awaitingFirstBeat := false }

def ownLaneStart (e : Entry) (l : LaneId) (s : State) : State :=
  if s.arrayState = .initialising then s.answer e.tag .notReady .none
  else if !(s.lane l).state.isStopped then s.answer e.tag .wrongState .none
  else if s.groupFired l then s.answer e.tag .wrongState .none
  else (((s.mapLane l Lane.prime).settleLane l 0).answer e.tag .ok .none).endEvent

def serveLaneStart : Service := dispatchTo parseLane ownLaneStart

/-- LANE_START (R31). -/
def execLaneStart (tag : Byte) (payload : List Byte) (s : State) : Host.Outcome State Fault Refusal :=
  s.happen fun s => s.receiveRequest tag 0x21 payload serveLaneStart

/-! ## LANE STOP (R42) -/

/-- AT END only sets stop pending: a RUNNING lane, but for a fired play lane before its first beat (R42). -/
def Lane.stopsLater (ln : Lane) : Bool :=
  decide (ln.state = .running) && (decide (ln.config.mode = .capture) || !ln.awaitingFirstBeat)

/-- Table 2-8. -/
def State.stopLane (s : State) (l : LaneId) : StopMode → State
  | .now => s.halt l .request
  | .atEnd =>
    if (s.lane l).stopsLater then s.mapLane l fun ln => { ln with stopPending := true }
    else s.halt l .request

def ownLaneStop (e : Entry) (x : LaneId × StopMode) (s : State) : State :=
  if (s.lane x.1).state = .resetting then s.answer e.tag .wrongState .none
  else ((s.answer e.tag .ok .none).stopLane x.1 x.2).endEvent

def serveLaneStop : Service := dispatchTo parseLaneStop ownLaneStop

/-- LANE_STOP (R42). -/
def execLaneStop (tag : Byte) (payload : List Byte) (s : State) : Host.Outcome State Fault Refusal :=
  s.happen fun s => s.receiveRequest tag 0x22 payload serveLaneStop

/-! ## LANE RESET (R43, R44) -/

def ownLaneReset (e : Entry) (l : LaneId) (s : State) : State :=
  if (s.lane l).state = .resetting then s.answer e.tag .wrongState .none
  else
    let s := s.mapLane l Lane.enterReset
    (if (s.lane l).resetWaits then s else (s.mapLane l Lane.endReset).answer e.tag .ok .none).endEvent

def serveLaneReset : Service := dispatchTo parseLane ownLaneReset

/-- LANE_RESET (R43). -/
def execLaneReset (tag : Byte) (payload : List Byte) (s : State) : Host.Outcome State Fault Refusal :=
  s.happen fun s => s.receiveRequest tag codeLaneReset payload serveLaneReset

/-! ## LANE STATUS (R45) -/

def Lane.report (ln : Lane) : LaneReport :=
  { state := ln.state, stallCause := ln.state.stallCause?, haltReason := ln.state.haltReason?,
    active := ln.activeSlot, pointer := ln.progress?.map fun p => p.pointer,
    repsLeft := ln.progress?.map fun p => p.repsLeft, slotA := ln.slotA.report, slotB := ln.slotB.report,
    waiting := ln.queue.length, stallBeats := ln.stallBeats, lateCues := ln.lateCues,
    droppedWords := ln.droppedWords }

def ownLaneStatus (e : Entry) (x : LaneId × Bool) (s : State) : State :=
  let report := (s.lane x.1).report
  let s := if x.2 then s.mapLane x.1 Lane.clearCounters else s
  s.answer e.tag .ok (.laneStatus report)

def serveLaneStatus : Service := dispatchTo parseLaneStatus ownLaneStatus

/-- LANE_STATUS (R45). -/
def execLaneStatus (tag : Byte) (payload : List Byte) (s : State) : Host.Outcome State Fault Refusal :=
  s.happen fun s => s.receiveRequest tag 0x24 payload serveLaneStatus

end Sys2Proof.Machine
end

