-- ==== Sys2Proof/Machine/RowRequests.lean ====
section
/-! DEFINITION. ROW WRITE, ROW READ and ROW FILL: their admission (R108 to R111, R147) and their completion (R112). -/

namespace Sys2Proof.Machine

open Sys2Proof

/-- Admission to the host array queue (R147); an operation with none waiting ahead is the HOST claim, placed in
this event (R46), and a selection follows where the port is FREE (R49). -/
def ownHostOp (e : Entry) (x : RowRef × HostKind) (s : State) : State :=
  if s.arrayState = .initialising then s.answer e.tag .notReady .none
  else if Config.hostQueuePlaces ≤ s.hostDepth then s.answer e.tag .busy .none
  else
    let op : HostOp := { tag := e.tag, ref := x.1, kind := x.2 }
    State.endEvent { s with
      hostWaiting := s.hostWaiting ++ [op]
      hostClaimAge := if s.hostWaiting.isEmpty then some s.event else s.hostClaimAge }

def serveRowWrite : Service := dispatchTo parseRowWrite ownHostOp

def serveRowRead : Service := dispatchTo parseRowRead ownHostOp

def serveRowFill : Service := dispatchTo parseRowFill ownHostOp

/-- ROW_WRITE (R109). -/
def execRowWrite (tag : Byte) (payload : List Byte) (s : State) : Host.Outcome State Fault Refusal :=
  s.happen fun s => s.receiveRequest tag 0x30 payload serveRowWrite

/-- ROW_READ (R110). -/
def execRowRead (tag : Byte) (payload : List Byte) (s : State) : Host.Outcome State Fault Refusal :=
  s.happen fun s => s.receiveRequest tag 0x31 payload serveRowRead

/-- ROW_FILL (R111). -/
def execRowFill (tag : Byte) (payload : List Byte) (s : State) : Host.Outcome State Fault Refusal :=
  s.happen fun s => s.receiveRequest tag 0x32 payload serveRowFill

/-- What a host operation leaves in the array at its completion (R109 to R111). -/
def HostKind.store (k : HostKind) (m : Memory) (r : Row) : Memory :=
  match k with
  | .write start words => m.writeList (cellKey r start) words
  | .read _ _ => m
  | .fill first final word => m.writeList (cellKey r first) (List.replicate (final - first + 1) word)

/-- The fields of its OK reply (R109 to R111). -/
def HostKind.reply (k : HostKind) (m : Memory) (res : Resolution) : ReplyFields :=
  match k with
  | .write _ _ => .rowUsed res
  | .read start count => .rowWords res start (m.readList (cellKey res.row start) count)
  | .fill _ _ _ => .rowUsed res

end Sys2Proof.Machine
end

