-- ==== Sys2Proof/Machine/AliasRequests.lean ====
section
/-! DEFINITION. ALIAS BIND, ALIAS UNBIND and ALIAS QUERY (R113 to R117). -/

namespace Sys2Proof.Machine

open Sys2Proof

/-- The entry after a BIND: the row, and the generation up by 1, wrapping (R114). -/
def AliasEntry.bind (e : AliasEntry) (r : Row) : AliasEntry :=
  { row := some r, generation := wrapInc e.generation }

/-- The entry after an UNBIND: a BOUND one is unbound and its generation rises, an UNBOUND one stays (R115). -/
def AliasEntry.unbind (e : AliasEntry) : AliasEntry :=
  match e.row with
  | some _ => { row := none, generation := wrapInc e.generation }
  | none => e

/-- The entry changes, and the reply carries it (R114, R115). -/
def State.rebind (s : State) (tag : Byte) (n : AliasNo) (entry : AliasEntry) : State :=
  (s.setAlias n entry).answer tag .ok (.aliasEntry n entry)

def ownAliasBind (e : Entry) (x : AliasNo × Row) (s : State) : State :=
  s.rebind e.tag x.1 ((s.aliasAt x.1).bind x.2)

def serveAliasBind : Service := dispatchTo parseAliasBind ownAliasBind

/-- ALIAS_BIND (R114). -/
def execAliasBind (tag : Byte) (payload : List Byte) (s : State) : Host.Outcome State Fault Refusal :=
  s.happen fun s => s.receiveRequest tag 0x40 payload serveAliasBind

def ownAliasUnbind (e : Entry) (n : AliasNo) (s : State) : State := s.rebind e.tag n (s.aliasAt n).unbind

def serveAliasUnbind : Service := dispatchTo parseAlias ownAliasUnbind

/-- ALIAS_UNBIND (R115). -/
def execAliasUnbind (tag : Byte) (payload : List Byte) (s : State) : Host.Outcome State Fault Refusal :=
  s.happen fun s => s.receiveRequest tag 0x41 payload serveAliasUnbind

def ownAliasQuery (e : Entry) (n : AliasNo) (s : State) : State :=
  s.answer e.tag .ok (.aliasEntry n (s.aliasAt n))

def serveAliasQuery : Service := dispatchTo parseAlias ownAliasQuery

/-- ALIAS_QUERY (R116). -/
def execAliasQuery (tag : Byte) (payload : List Byte) (s : State) : Host.Outcome State Fault Refusal :=
  s.happen fun s => s.receiveRequest tag 0x42 payload serveAliasQuery

end Sys2Proof.Machine
end

