-- ==== Sys2Proof/Machine/GroupRequests.lean ====
section
/-! DEFINITION. GROUP CONFIG, GO, STOP and STATUS, the fire, and the TRIG edge (chapter 7). -/

namespace Sys2Proof.Machine

open Sys2Proof

/-! ## The fire (R123) -/

/-- A READY member at the fire: RUNNING with its first slot ACTIVE; an INTERNAL divider restarts (R34, R123, R26). -/
def Lane.fireAt (now : Nat) (ln : Lane) : Lane :=
  let ln' := match ln.oldestSlot with
    | some n => ln.run n
    | none => { ln with state := .running }
  { ln' with awaitingFirstBeat := true,
             dividerStart := match ln.config.clock with
               | .internal _ => now
               | .external => ln.dividerStart }

/-- The members that a fire starts, ascending. -/
def State.readyMembers (s : State) (g : GroupName) : List LaneId :=
  (s.members g).filter fun l => decide ((s.lane l).state = .ready)

/-- The fire of an ARMED group (R123). -/
def State.fire (s : State) (g : GroupName) : State :=
  let started := s.readyMembers g
  let s := started.foldl (fun s l => s.mapLane l (Lane.fireAt s.now)) s
  (s.setGroup g { s.group g with state := .fired }).offer (.groupFired g started)

/-! ## GROUP CONFIG (R119) -/

def ownGroupConfig (e : Entry) (x : GroupName × TriggerSource × Bool) (s : State) : State :=
  if (s.group x.1).state = .opened then
    (s.setGroup x.1 { s.group x.1 with trigger := x.2.1, haltTogether := x.2.2 }).answer e.tag .ok .none
  else s.answer e.tag .wrongState .none

def serveGroupConfig : Service := dispatchTo parseGroupConfig ownGroupConfig

/-- GROUP_CONFIG (R119). -/
def execGroupConfig (tag : Byte) (payload : List Byte) (s : State) : Host.Outcome State Fault Refusal :=
  s.happen fun s => s.receiveRequest tag 0x50 payload serveGroupConfig

/-! ## GROUP GO (R121) -/

def ownGroupGo (e : Entry) (g : GroupName) (s : State) : State :=
  if (s.group g).trigger = .request ∧ (s.group g).state = .armed then (s.fire g).answer e.tag .ok .none
  else s.answer e.tag .wrongState .none

def serveGroupGo : Service := dispatchTo parseGroup ownGroupGo

/-- GROUP_GO (R121). -/
def execGroupGo (tag : Byte) (payload : List Byte) (s : State) : Host.Outcome State Fault Refusal :=
  s.happen fun s => s.receiveRequest tag 0x51 payload serveGroupGo

/-! ## GROUP STOP (R126) -/

/-- LANE STOP NOW to each member in ascending lane order, without halt-together; IDLE, HALTED, ENDING and RESETTING
members are passed over. -/
def State.stopMembers (s : State) (g : GroupName) : State :=
  (s.members g).foldl (fun s l => s.haltOne l .request) s

def ownGroupStop (e : Entry) (g : GroupName) (s : State) : State :=
  ((s.stopMembers g).answer e.tag .ok .none).endEvent

def serveGroupStop : Service := dispatchTo parseGroup ownGroupStop

/-- GROUP_STOP (R126). -/
def execGroupStop (tag : Byte) (payload : List Byte) (s : State) : Host.Outcome State Fault Refusal :=
  s.happen fun s => s.receiveRequest tag 0x52 payload serveGroupStop

/-! ## GROUP STATUS (R127) -/

def State.groupReport (s : State) (g : GroupName) : GroupReport :=
  { group := s.group g, members := (s.members g).map fun l => (l, (s.lane l).state) }

def ownGroupStatus (e : Entry) (g : GroupName) (s : State) : State :=
  s.answer e.tag .ok (.groupStatus (s.groupReport g))

def serveGroupStatus : Service := dispatchTo parseGroup ownGroupStatus

/-- GROUP_STATUS (R127). -/
def execGroupStatus (tag : Byte) (payload : List Byte) (s : State) : Host.Outcome State Fault Refusal :=
  s.happen fun s => s.receiveRequest tag 0x53 payload serveGroupStatus

/-! ## TRIG (R122) -/

/-- The edge is of the kind the trigger source waits for (Table 7-3). -/
def TriggerSource.waitsFor (t : TriggerSource) (rising : Bool) : Bool :=
  match t with
  | .pinRise => rising
  | .pinFall => !rising
  | .request => false

/-- A TRIG edge at one group (Table 7-3). -/
def State.edgeAt (s : State) (rising : Bool) (g : GroupName) : State :=
  if (s.group g).trigger.waitsFor rising then
    match (s.group g).state with
    | .armed => s.fire g
    | .opened => s.offer (.triggerIgnored g .opened)
    | .fired => s.offer (.triggerIgnored g .fired)
  else s

/-- TRIG_EDGE (R122): a changed level that has held for 50 ns is an edge, offered to both groups; the order of their
notices is free (log entries 12, 17). -/
def execTrigEdge (level : Bool) (heldNs : Nat) (s : State) : Host.Outcome State Fault Refusal :=
  s.happen fun s =>
    if level = s.trigLevel ∨ heldNs < Config.edgeNs then s
    else
      let s := { s with trigLevel := level }
      if Config.g1First s.event then (s.edgeAt level .g1).edgeAt level .g2
      else (s.edgeAt level .g2).edgeAt level .g1

end Sys2Proof.Machine
end

