-- ==== Sys2Proof/Machine/LinkRequests.lean ====
section
/-! DEFINITION. NOTICE RESEND, ECHO, DEVICE STATUS and DEVICE RESET, and the end of a device reset (R134, R150 to R154). -/

namespace Sys2Proof.Machine

open Sys2Proof

/-! ## NOTICE RESEND (R134) -/

/-- Every entry becomes UNSENT, so that the head is the offered notice again. -/
def NoticeQueue.unsend (q : NoticeQueue) : NoticeQueue :=
  { q with entries := q.entries.map fun x => { x with sent := false } }

def ownNoticeResend (e : Entry) (_ : Unit) (s : State) : State :=
  State.answer { s with notices := s.notices.unsend } e.tag .ok .none

def serveNoticeResend : Service := dispatchTo parseNothing ownNoticeResend

/-- NOTICE_RESEND (R134). -/
def execNoticeResend (tag : Byte) (payload : List Byte) (s : State) : Host.Outcome State Fault Refusal :=
  s.happen fun s => s.receiveRequest tag 0x60 payload serveNoticeResend

/-! ## ECHO (R150) -/

def ownEcho (e : Entry) (bytes : List Byte) (s : State) : State := s.answer e.tag .ok (.echo bytes)

def serveEcho : Service := dispatchTo parseEcho ownEcho

/-- ECHO (R150). -/
def execEcho (tag : Byte) (payload : List Byte) (s : State) : Host.Outcome State Fault Refusal :=
  s.happen fun s => s.receiveRequest tag 0x70 payload serveEcho

/-! ## DEVICE STATUS (R151) -/

def State.deviceReport (s : State) : DeviceReport :=
  { array := s.arrayState, crcErrors := s.link.crcErrors, framingErrors := s.link.framingErrors,
    oversizeErrors := s.link.oversizeErrors, noRoom := s.link.noRoom,
    noticeDepth := s.notices.entries.length, lost := s.notices.lost, openRequests := s.link.table.length,
    hostDepth := s.hostDepth, lanes := s.lanes.map fun ln => ln.state }

def ownDeviceStatus (e : Entry) (clear : Bool) (s : State) : State :=
  let report := s.deviceReport
  let s := if clear then { s with link := s.link.clearCounters } else s
  s.answer e.tag .ok (.deviceStatus report)

def serveDeviceStatus : Service := dispatchTo parseClear ownDeviceStatus

/-- DEVICE_STATUS (R151). -/
def execDeviceStatus (tag : Byte) (payload : List Byte) (s : State) : Host.Outcome State Fault Refusal :=
  s.happen fun s => s.receiveRequest tag 0x71 payload serveDeviceStatus

/-! ## DEVICE RESET (R152 to R154) -/

/-- The tag of the host operation in flight. -/
def State.hostInFlightTag (s : State) : Option Byte :=
  match s.port.inFlight with
  | some { op := .host op _, .. } => some op.tag
  | _ => none

/-- Entries answered ABORTED by a device reset with tag `own`: all but its own and the host operation in flight (R152). -/
def State.abortedTags (s : State) (own : Byte) : List Byte :=
  (s.link.table.map fun e => e.tag).filter fun t => t ≠ own ∧ some t ≠ s.hostInFlightTag

/-- The ABORTED replies in arrival order. -/
def State.abortAll (s : State) : List Byte → State
  | [] => s
  | t :: ts => (s.answer t .aborted .none).abortAll ts

/-- A lane at the taking of a device reset (R152 step 3): the lane reset with the configuration of Table 2-1 and the
divider restarted; a lane with nothing in flight is IDLE at once. -/
def Lane.deviceReset (now : Nat) (ln : Lane) : Lane :=
  let ln := { ln.enterReset with config := LaneConfig.default, pins := Pins.reset, dividerStart := now }
  if ln.resetWaits then ln else ln.endReset

/-- Steps 1 to 6 of R152. -/
def State.takeDeviceReset (s : State) (tag : Byte) : State :=
  let s := s.abortAll (s.abortedTags tag)
  { s with
    hostWaiting := []
    hostClaimAge := none
    port := { s.port with laneGrants := 0 }
    lanes := s.lanes.map (Lane.deviceReset s.now)
    groups := { g1 := Group.reset, g2 := Group.reset }
    aliases := Vector.replicate 64 { row := none, generation := 0 }
    notices := { entries := [], nextSeq := 0, lost := 0 }
    link := { s.link.clearCounters with deviceReset := some tag } }

/-- The end of a device reset: its OK, then START as sequence number 0 (R154, R137). -/
def State.endDeviceReset (s : State) : State :=
  match s.link.deviceReset with
  | none => s
  | some tag =>
    (State.answer { s with link := { s.link with deviceReset := none } } tag .ok .none).offer
      (.start .request s.link.rate)

def ownDeviceReset (e : Entry) (_ : Unit) (s : State) : State :=
  let s := s.takeDeviceReset e.tag
  match s.port.inFlight with
  | some _ => s
  | none => s.endDeviceReset

def serveDeviceReset : Service := dispatchTo parseNothing ownDeviceReset

/-- DEVICE_RESET (R152). -/
def execDeviceReset (tag : Byte) (payload : List Byte) (s : State) : Host.Outcome State Fault Refusal :=
  s.happen fun s => s.receiveRequest tag 0x72 payload serveDeviceReset

end Sys2Proof.Machine
end

