-- ==== Sys2Proof/Machine/Events.lean ====
section
/-! DEFINITION. Completions on the array port, hard reset and its release (R44, R51, R93, R105, R106, R112, R155). -/

namespace Sys2Proof.Machine

open Sys2Proof

/-! ## Completions (R51) -/

/-- The port becomes FREE. -/
def State.freePort (s : State) : State := { s with port := { s.port with inFlight := none } }

/-- After a completion's own results: the end of a device reset that waited for it (R154), then selection and groups. -/
def State.completed (s : State) : State := s.endDeviceReset.endEvent

/-- The result of a refill (R35, R60): a LOADING slot takes the words as they stand, a DISCARDING slot drops them. -/
def State.finishRefill (s : State) (l : LaneId) (n : SlotName) (res : Resolution) : State :=
  match (s.lane l).slot n with
  | .loading c =>
    (s.mapLane l fun ln => ln.setSlot n (.loaded c (s.array.span res.row c.record) res)).settleLane l c.record.id
  | .discarding => (s.mapLane l fun ln => ln.setSlot n .empty).settleLane l ((s.lane l).lastCue.getD 0)
  | _ => s

/-- REFILL_COMPLETION (R51). With no refill in flight the event cannot occur and changes nothing (log entry 7). -/
def execRefillCompletion (s : State) : Host.Outcome State Fault Refusal :=
  s.happen fun s =>
    match s.port.inFlight with
    | some { op := .refill l n res, .. } => (s.freePort.finishRefill l n res).completed
    | _ => s

/-- CAPTURED when the range was tap to last, PARTIAL otherwise (R93). -/
def commitOutcome (c : Cue) (range : ColumnRange) : CueOutcome :=
  if range.last = c.last then .captured else .partialSpan

/-- The result of a commit (R61, R93): its words are written, its slot becomes EMPTY, its cue, where still held, is
retired, and the lane acts. -/
def State.finishCommit (s : State) (l : LaneId) (n : SlotName) (res : Resolution) (half : Half) : State :=
  match (s.lane l).slot n with
  | .committing cue words range =>
    let s := { s with array := s.array.writeList (cellKey res.row (half.column range.first)) (rangeWords words range) }
    let s := s.mapLane l fun ln => ln.setSlot n .empty
    match cue with
    | some c => (s.retire l c (commitOutcome c.record range)).settleLane l c.record.id
    | none => s.settleLane l 0
  | _ => s

/-- COMMIT_COMPLETION (R93). -/
def execCommitCompletion (s : State) : Host.Outcome State Fault Refusal :=
  s.happen fun s =>
    match s.port.inFlight with
    | some { op := .commit l n res half, .. } => (s.freePort.finishCommit l n res half).completed
    | _ => s

/-- The result of a host operation (R112): writes take effect or words are read, and its OK is handed over. -/
def State.finishHost (s : State) (op : HostOp) (res : Resolution) : State :=
  State.answer { s with array := op.kind.store s.array res.row } op.tag .ok (op.kind.reply s.array res)

/-- HOST_OPERATION_COMPLETION (R112). -/
def execHostOperationCompletion (s : State) : Host.Outcome State Fault Refusal :=
  s.happen fun s =>
    match s.port.inFlight with
    | some { op := .host op res, .. } => (s.freePort.finishHost op res).completed
    | _ => s

/-- The result of the array clear (R105, R106): every word 00h, READY, a device reset that waited ends, then ARRAY READY. -/
def State.finishClear (s : State) : State :=
  (State.endDeviceReset { s with array := [], arrayState := .ready }).offer .arrayReady

/-- ARRAY_CLEAR_COMPLETION (R105). -/
def execArrayClearCompletion (s : State) : Host.Outcome State Fault Refusal :=
  s.happen fun s =>
    match s.port.inFlight with
    | some { op := .clear, .. } => s.freePort.finishClear.endEvent
    | _ => s

/-! ## Hard reset (R22, R66, R104, R118, R137, R155, R160) -/

/-- Everything at its reset value; the words of the array stay unreadable until a clear has ended (R104, R105; log
entry 15). Time, the event number and the queue of commands are the model's own. -/
def State.holdReset (s : State) : State :=
  { State.reset with array := s.array, event := s.event + 1, now := s.now, pending := s.pending }

/-- HARD_RESET (R155). -/
def execHardReset (s : State) : Host.Outcome State Fault Refusal := .next s.holdReset

/-- RATE1:RATE0 (Table 9-1). -/
def rateOf (rate1 rate0 : Bool) : LinkRate :=
  match rate1, rate0 with
  | false, false => .half
  | false, true => .one
  | true, false => .two
  | true, true => .four

/-- The release (R65, R122, R137, R139, R155, R160): rate and TRIG level fixed, dividers from zero, the clear granted,
START queued. -/
def State.release (s : State) (rate : LinkRate) (trig : Bool) : State :=
  (State.occupy { s with
      resetn := true
      trigLevel := trig
      arrayState := .initialising
      link := { s.link with rate := rate }
      lanes := s.lanes.map fun ln => { ln with dividerStart := s.now } } .clear 0).offer (.start .pin rate)

/-- RESETN_RELEASE (R65). With RESETN already high there is no release and nothing changes (log entry 7). -/
def execResetnRelease (rate1 rate0 trig : Bool) (s : State) : Host.Outcome State Fault Refusal :=
  if s.resetn then .next s
  else .next ((s.nextEvent.release (rateOf rate1 rate0) trig).transmit)

end Sys2Proof.Machine
end

