-- ==== Sys2Proof/Machine/Link.lean ====
section
/-! DEFINITION. The receiver character by character, service by request code, discards, NOTICE ACK, and the end of a sent
frame (R133, R140 to R145, R148). -/

namespace Sys2Proof.Machine

open Sys2Proof

/-! ## Service by code (Tables 9-4 and 10-6) -/

/-- A code that is no request code: check 1 of R145. -/
def serveUnknown : Service := fun e s => s.answer e.tag .unknownRequest .none

/-- The service of a request code. -/
def serviceOf (code : Byte) : Service :=
  match code.toNat with
  | 0x10 => serveCuePost
  | 0x11 => serveCueFlush
  | 0x12 => serveCueList
  | 0x20 => serveLaneConfig
  | 0x21 => serveLaneStart
  | 0x22 => serveLaneStop
  | 0x23 => serveLaneReset
  | 0x24 => serveLaneStatus
  | 0x30 => serveRowWrite
  | 0x31 => serveRowRead
  | 0x32 => serveRowFill
  | 0x40 => serveAliasBind
  | 0x41 => serveAliasUnbind
  | 0x42 => serveAliasQuery
  | 0x50 => serveGroupConfig
  | 0x51 => serveGroupGo
  | 0x52 => serveGroupStop
  | 0x53 => serveGroupStatus
  | 0x60 => serveNoticeResend
  | 0x70 => serveEcho
  | 0x71 => serveDeviceStatus
  | 0x72 => serveDeviceReset
  | _ => serveUnknown

/-- UNKNOWN_REQUEST (R145): a frame whose code is not a request code; a frame with a request code is that request. -/
def execUnknownRequest (tag code : Byte) (payload : List Byte) (s : State) : Host.Outcome State Fault Refusal :=
  s.happen fun s => s.receiveRequest tag code payload (serviceOf code)

/-! ## NOTICE ACK (R133, R135) -/

/-- Removes through `seq` when held; a lost count that is not 0 is then reported and becomes 0. -/
def State.acknowledge (s : State) (seq : Byte) : State :=
  let n := s.notices.ackCount seq
  if n = 0 then s
  else
    let s := { s with notices := { s.notices with entries := s.notices.entries.drop n } }
    if s.notices.lost = 0 then s
    else
      let s := s.offer (.noticesLost s.notices.lost)
      { s with notices := { s.notices with lost := 0 } }

/-- NOTICE_ACK (R133): taken whatever the state of the part (R143). -/
def execNoticeAck (seq : Byte) (s : State) : Host.Outcome State Fault Refusal :=
  s.happen fun s => (s.hunt false).acknowledge seq

/-! ## Discards (R142) -/

/-- A character fault blocks the line until HRX has been high for one bit time (R140). -/
def blocksLine : DiscardCase → Bool
  | .characterFault => true
  | _ => false

/-- After a character fault "the receiver takes no new start bit until HRX has been high for at least one bit time" (R140):
HRX has been high for `highNs` before this start bit, by the sender's measure (log entry 26). -/
def State.startBitLost (s : State) (highNs : Nat) : Bool :=
  s.link.receiver.lineBlocked && decide (highNs < s.link.rate.bitNs)

/-- FRAME_DISCARD (R142). A receiver that has lost the frame's first start bit has taken no frame (R140). -/
def execFrameDiscard (frame : DiscardedFrame) (s : State) : Host.Outcome State Fault Refusal :=
  s.happen fun s =>
    if s.startBitLost frame.highNs then s else s.discard (discardClass frame.case) (blocksLine frame.case)

/-- Inside a frame, 32 bit times have passed since the last stop bit (R142). -/
def State.idleOver (s : State) : Bool :=
  decide (s.link.receiver.state ≠ .hunting) && decide (s.link.receiver.lastStop + s.link.rate.idleNs ≤ s.now)

/-- IDLE_EXPIRY (R142): the 32 bit times expire inside a frame, which is discarded. In HUNTING, or before they have passed,
there is no expiry (log entry 11). -/
def execIdleExpiry (s : State) : Host.Outcome State Fault Refusal :=
  s.happen fun s => if s.idleOver then s.discard .framing false else s

/-- The idle expiry that came before this start bit: HRX had been high for more than 32 bit times inside a frame, so the frame
is discarded, and the character is received in HUNTING (R142; log entry 37). -/
def State.expireBefore (s : State) (highNs : Nat) : State :=
  if s.link.receiver.state ≠ .hunting ∧ s.link.rate.idleNs < highNs then s.discard .framing false else s

/-! ## Characters (R140, R141, R143) -/

def State.setReceiver (s : State) (r : Receiver) : State := { s with link := { s.link with receiver := r } }

/-- The kinds of frame the host sends (Table 10-2). -/
def kindRequest : Byte := 0x01

def kindNoticeAck : Byte := 0x02

/-- A frame ends with a correct CRC: it is acted on by its kind, or discarded (R142, R143). `bytes` are kind, tag, code, the
two length bytes and the payload. -/
def State.judgeFrame (s : State) (bytes : List Byte) : State :=
  match bytes with
  | kind :: tag :: code :: _ :: _ :: payload =>
    if kind = kindRequest then s.receiveRequest tag code payload (serviceOf code)
    else if kind = kindNoticeAck then
      match payload with
      | [seq] => (s.hunt false).acknowledge seq
      | _ => s.discard .framing false
    else s.discard .framing false
  | _ => s.discard .framing false

/-- The length field of a header: its fourth and fifth bytes from the kind. -/
def headerLength (bytes : List Byte) : Nat := pairNat (bytes.getD 3 0) (bytes.getD 4 0)

/-- A header byte (Table 9-2). -/
def State.headerByte (s : State) (r : Receiver) (b : Byte) : State :=
  let r := { r with bytes := r.bytes ++ [b], crc := crcByte r.crc b, remaining := r.remaining - 1 }
  if 0 < r.remaining then s.setReceiver r
  else if Config.maxPayload < headerLength r.bytes then s.discard .oversize false
  else if headerLength r.bytes = 0 then s.setReceiver { r with state := .check, remaining := 2 }
  else s.setReceiver { r with state := .payload, remaining := headerLength r.bytes }

/-- A payload byte (Table 9-2). -/
def State.payloadByte (s : State) (r : Receiver) (b : Byte) : State :=
  let r := { r with bytes := r.bytes ++ [b], crc := crcByte r.crc b, remaining := r.remaining - 1 }
  if 0 < r.remaining then s.setReceiver r
  else s.setReceiver { r with state := .check, remaining := 2 }

/-- A CRC byte; at the second the frame ends and is judged (R141, R157). -/
def State.checkByte (s : State) (r : Receiver) (b : Byte) : State :=
  if 1 < r.remaining then s.setReceiver { r with checkLow := b, remaining := r.remaining - 1 }
  else if pairNat r.checkLow b = r.crc.toNat then s.judgeFrame r.bytes
  else s.discard .crc false

/-- The start byte of a frame. -/
def startByte : Byte := 0xC3

/-- A character with its stop bit high (Table 9-2). Inside a frame its stop bit is the one the 32 bit times are counted from
(R142). -/
def State.goodCharacter (s : State) (b : Byte) : State :=
  let r := { s.link.receiver with lineBlocked := false, lastStop := s.now }
  match s.link.receiver.state with
  | .hunting =>
    if b = startByte then s.setReceiver { Receiver.hunting with state := .header, remaining := 5, lastStop := s.now }
    else s.setReceiver { s.link.receiver with lineBlocked := false }
  | .header => s.headerByte r b
  | .payload => s.payloadByte r b
  | .check => s.checkByte r b

/-- A character fault: dropped in HUNTING, a FRAMING discard inside a frame; either way the line is blocked (R140 to
R142). -/
def State.badCharacter (s : State) : State :=
  if s.link.receiver.state = .hunting then s.setReceiver { s.link.receiver with lineBlocked := true }
  else s.discard .framing true

/-- CHARACTER_RECEIVED (R140 to R142). A character whose start bit the receiver does not take is none, and the block stays; a
character that ends or discards a frame does so in this event (log entry 10). -/
def execCharacterReceived (byte : Byte) (line : CharacterLine) (s : State) : Host.Outcome State Fault Refusal :=
  s.happen fun s =>
    if s.startBitLost line.highNs then s
    else
      let s := s.expireBefore line.highNs
      if line.stopHigh then s.goodCharacter byte else s.badCharacter

/-! ## The end of a sent frame (R148) -/

/-- TRANSMITTER_FRAME_END: FREE, and the next frame is taken in the same event (by `State.happen`). -/
def execTransmitterFrameEnd (s : State) : Host.Outcome State Fault Refusal :=
  s.happen fun s => { s with tx := { s.tx with sending := none } }

end Sys2Proof.Machine
end

