-- ==== Sys2Proof/Machine/Clock.lean ====
section
/-! DEFINITION. What passing time brings about: the part's own timers put their events in the queue (R26, R48, R142, R148). -/

namespace Sys2Proof.Machine

open Sys2Proof

/-- An INTERNAL divider has reached its count (R26). -/
def State.dividerDue (s : State) (l : LaneId) : Bool :=
  match (s.lane l).config.clock with
  | .internal d => (s.lane l).dividerStart + d * Config.refclkNs ≤ s.now
  | .external => false

/-- The command of an operation's completion (R51). -/
def Operation.completion : Operation → Instr
  | .refill _ _ _ => .refillCompletion
  | .commit _ _ _ _ => .commitCompletion
  | .host _ _ => .hostOperationCompletion
  | .clear => .arrayClearCompletion

/-- The operation in flight has held the port for its duration (R48). -/
def State.portDue (s : State) : List Instr :=
  match s.port.inFlight with
  | some f => if f.grantedAt + f.op.duration ≤ s.now then [f.op.completion] else []
  | none => []

/-- The frame on HTX has been sent: ten bit times a character (R139, R148). -/
def State.frameDue (s : State) : List Instr :=
  match s.tx.sending with
  | some f => if f.startedAt + f.frame.length * 10 * s.link.rate.bitNs ≤ s.now then [.transmitterFrameEnd] else []
  | none => []

/-- The 32 bit times inside a frame have passed without the start bit of a further character (R142; log entry 37). -/
def State.idleDue (s : State) : List Instr :=
  if s.idleOver && !Config.startBitInTime s.link.receiver.lastStop then [.idleExpiry] else []

/-- The events that fall at this moment. -/
def State.due (s : State) : List Instr :=
  ((laneOrder.filter s.dividerDue).map fun l => .dividerExpiry l (Config.ldPins s.now l) (Config.lqvPin s.now l)) ++
    s.portDue ++ s.frameDue ++ s.idleDue

/-- Events of one moment in an order the spec leaves open: each is put among the others at a free place. -/
def interleave (now : Nat) : List Instr → List Instr
  | [] => []
  | [c] => [c]
  | c :: cs =>
    let rest := interleave now cs
    rest.insertIdx (Config.dueAt now cs.length % (rest.length + 1)) c

/-- Time passes by one unit while RESETN is high, and the timers that are due put their events in the queue. While RESETN
is low nothing runs. -/
def State.passTime (s : State) : State :=
  if s.resetn then
    let s := { s with now := s.now + Config.tickNs }
    { s with pending := s.pending ++ interleave s.now s.due }
  else s

/-- The state with the command that a table word spells at the front of its queue; the table gives no row bits. -/
def State.withTableWord (s : State) (nbits w : Nat) : State :=
  match decodeTableWord nbits w with
  | some c => { s with pending := c :: s.pending }
  | none => s

end Sys2Proof.Machine
end

