-- ==== Sys2Proof/Machine/Dispatch.lean ====
section
/-! DEFINITION. The meaning of every command: one arm per row of spec/opcode_table.json. -/

namespace Sys2Proof.Machine

open Sys2Proof

def exec (i : Instr) (s : State) : Host.Outcome State Fault Refusal :=
  match i with
  -- chapter 1
  | .cuePost tag payload => Sys2Proof.Machine.execCuePost tag payload s
  | .cueFlush tag payload => Sys2Proof.Machine.execCueFlush tag payload s
  | .cueList tag payload => Sys2Proof.Machine.execCueList tag payload s
  -- chapter 2
  | .laneConfig tag payload => Sys2Proof.Machine.execLaneConfig tag payload s
  | .laneStart tag payload => Sys2Proof.Machine.execLaneStart tag payload s
  | .laneStop tag payload => Sys2Proof.Machine.execLaneStop tag payload s
  | .laneReset tag payload => Sys2Proof.Machine.execLaneReset tag payload s
  | .laneStatus tag payload => Sys2Proof.Machine.execLaneStatus tag payload s
  -- chapter 6
  | .rowWrite tag payload => Sys2Proof.Machine.execRowWrite tag payload s
  | .rowRead tag payload => Sys2Proof.Machine.execRowRead tag payload s
  | .rowFill tag payload => Sys2Proof.Machine.execRowFill tag payload s
  | .aliasBind tag payload => Sys2Proof.Machine.execAliasBind tag payload s
  | .aliasUnbind tag payload => Sys2Proof.Machine.execAliasUnbind tag payload s
  | .aliasQuery tag payload => Sys2Proof.Machine.execAliasQuery tag payload s
  -- chapter 7
  | .groupConfig tag payload => Sys2Proof.Machine.execGroupConfig tag payload s
  | .groupGo tag payload => Sys2Proof.Machine.execGroupGo tag payload s
  | .groupStop tag payload => Sys2Proof.Machine.execGroupStop tag payload s
  | .groupStatus tag payload => Sys2Proof.Machine.execGroupStatus tag payload s
  -- chapters 8 and 9, requests
  | .noticeResend tag payload => Sys2Proof.Machine.execNoticeResend tag payload s
  | .echo tag payload => Sys2Proof.Machine.execEcho tag payload s
  | .deviceStatus tag payload => Sys2Proof.Machine.execDeviceStatus tag payload s
  | .deviceReset tag payload => Sys2Proof.Machine.execDeviceReset tag payload s
  | .unknownRequest tag code payload => Sys2Proof.Machine.execUnknownRequest tag code payload s
  -- link events
  | .noticeAck seq => Sys2Proof.Machine.execNoticeAck seq s
  | .frameDiscard frame => Sys2Proof.Machine.execFrameDiscard frame s
  | .idleExpiry => Sys2Proof.Machine.execIdleExpiry s
  -- pins
  | .hardReset => Sys2Proof.Machine.execHardReset s
  | .resetnRelease rate1 rate0 trig => Sys2Proof.Machine.execResetnRelease rate1 rate0 trig s
  | .trigEdge level heldNs => Sys2Proof.Machine.execTrigEdge level heldNs s
  -- beats
  | .dividerExpiry lane ld lqv => Sys2Proof.Machine.execDividerExpiry lane ld lqv s
  | .lckEdge lane afterNs ld lqv => Sys2Proof.Machine.execLckEdge lane afterNs ld lqv s
  -- completions
  | .refillCompletion => Sys2Proof.Machine.execRefillCompletion s
  | .commitCompletion => Sys2Proof.Machine.execCommitCompletion s
  | .hostOperationCompletion => Sys2Proof.Machine.execHostOperationCompletion s
  | .arrayClearCompletion => Sys2Proof.Machine.execArrayClearCompletion s
  | .transmitterFrameEnd => Sys2Proof.Machine.execTransmitterFrameEnd s
  | .characterReceived byte line => Sys2Proof.Machine.execCharacterReceived byte line s

end Sys2Proof.Machine
end

