-- ==== Sys2Proof/Machine/Encode.lean ====
section
/-! DEFINITION. The payload bytes of a CUE POST, written from Tables 10-3, 10-4 and 10-6. -/

namespace Sys2Proof.Machine

open Sys2Proof

/-- Table 10-3: kind and number. -/
def RowRef.bytes : RowRef → List Byte
  | .row r => 0x00 :: fieldBytes r.val
  | .aliased n => 0x01 :: fieldBytes n.val

def Half.byte : Half → Byte
  | .lower => 0x00
  | .upper => 0x01

/-- The repeat field: a count, or 8000h for CONTINUOUS (Table 10-4). -/
def Reps.bytes : Reps → List Byte
  | .count n => fieldBytes n
  | .continuous => fieldBytes 0x8000

/-- The flags byte with LAST PRESENT set (Table 10-4). -/
def Cue.flagsByte (c : Cue) : Byte :=
  BitVec.ofNat 8 ((if c.notifyStart then 1 else 0) + (if c.notifyEnd then 2 else 0) + (if c.haltAfter then 4 else 0) +
    (if c.mark then 8 else 0) + 16)

/-- Table 10-4, with LAST PRESENT set. -/
def Cue.bytes (c : Cue) : List Byte :=
  [c.id] ++ c.ref.bytes ++ [c.half.byte, c.tap, c.last] ++ c.reps.bytes ++ [c.flagsByte]

/-- The payload of CUE POST (Table 10-6). -/
def postBytes (l : LaneId) (cues : List Cue) : List Byte :=
  laneByte l :: loByte cues.length :: cues.flatMap Cue.bytes

/-- A cue whose fields are in range (Table 1-7, R5). -/
def Cue.inRange (c : Cue) : Bool :=
  decide (c.tap.toNat ≤ c.last.toNat) &&
    match c.reps with
    | .count n => decide (1 ≤ n ∧ n ≤ 254)
    | .continuous => true

end Sys2Proof.Machine
end

