-- ==== Sys2Proof/Safety.lean ====
section
/-! DEFINITION. What a safe run keeps, and the words in which statements about the PL-4 are said: a request that reaches its
owner, the state in which it is answered, and the invariants of the array, the notice queue, the link, the host array queue
and the lanes. -/

namespace Sys2Proof.Machine

open Sys2Proof

/-! ## The command of a request code -/

/-- The command of a request frame with this code (Table 10-6); any other code is an UNKNOWN_REQUEST (R145). -/
def requestOf (code tag : Byte) (payload : List Byte) : Instr :=
  match code.toNat with
  | 0x10 => .cuePost tag payload
  | 0x11 => .cueFlush tag payload
  | 0x12 => .cueList tag payload
  | 0x20 => .laneConfig tag payload
  | 0x21 => .laneStart tag payload
  | 0x22 => .laneStop tag payload
  | 0x23 => .laneReset tag payload
  | 0x24 => .laneStatus tag payload
  | 0x30 => .rowWrite tag payload
  | 0x31 => .rowRead tag payload
  | 0x32 => .rowFill tag payload
  | 0x40 => .aliasBind tag payload
  | 0x41 => .aliasUnbind tag payload
  | 0x42 => .aliasQuery tag payload
  | 0x50 => .groupConfig tag payload
  | 0x51 => .groupGo tag payload
  | 0x52 => .groupStop tag payload
  | 0x53 => .groupStatus tag payload
  | 0x60 => .noticeResend tag payload
  | 0x70 => .echo tag payload
  | 0x71 => .deviceStatus tag payload
  | 0x72 => .deviceReset tag payload
  | _ => .unknownRequest tag code payload

/-! ## A request's way to its owner -/

/-- RESETN is high and the payload fits a frame: the request arrives at the open request table (R143, R155). -/
structure State.Arrives (s : State) (payload : List Byte) : Prop where
  resetn : s.resetn = true
  fits : payload.length ≤ Config.maxPayload

/-- The request makes an entry in the table: none of the refusals of R144 applies. -/
structure State.Admits (s : State) (tag : Byte) (payload : List Byte) : Prop where
  arrives : s.Arrives payload
  noDeviceReset : s.link.deviceReset = none
  place : s.placesHeld < Config.tablePlaces
  freeTag : s.entryOf tag = none

/-- A new event, with the receiver HUNTING after the frame, and nothing else changed. -/
def State.heard (s : State) : State :=
  { s with event := s.event + 1, link := { s.link with receiver := Receiver.hunting } }

/-- A request has been taken and its answer handed over, and nothing else changed: its entry has come and gone (R146). -/
def State.replied (s : State) (tag code : Byte) (status : Status) (fields : ReplyFields) : State :=
  { s.heard with tx := { s.tx with
      replies := s.tx.replies ++ [{ kind := .answer, tag := tag, code := code, status := status, fields := fields }] } }

/-- A request has been taken and stays WITH OWNER (R145), and nothing else changed. -/
def State.keptOpen (s : State) (tag code : Byte) (payload : List Byte) : State :=
  { s.heard with link := { s.heard.link with
      table := s.link.table ++ [{ tag := tag, code := code, payload := payload, state := .withOwner }] } }

/-- A refusal at arrival: a refusal reply, or, where four are held, none and the NOROOM counter up by 1 (R144, R148). -/
def State.refused (s : State) (tag code : Byte) (status : Status) : State :=
  if (s.tx.replies.filter fun r => r.kind = .refusal).length < 4 then
    { s with tx := { s.tx with
        replies := s.tx.replies ++ [{ kind := .refusal, tag := tag, code := code, status := status, fields := .none }] } }
  else { s with link := { s.link with noRoom := satInc s.link.noRoom } }

/-! ## Notices -/

/-- Notices offered one after another (R131). -/
def NoticeQueue.joinAll (q : NoticeQueue) (ns : List Notice) : NoticeQueue := ns.foldl NoticeQueue.join q

/-- Notices offered one after another to the part's queue (R130). -/
def State.offerAll (s : State) (ns : List Notice) : State := ns.foldl State.offer s

/-- The CUE END notice of a cue's retirement, where R19 calls for one. -/
def cueEndOf (l : LaneId) (c : HeldCue) (o : CueOutcome) : List Notice :=
  if c.record.notifyEnd = true ∨ o = .late ∨ o = .unbound ∨ o = .cut ∨ o = .partialSpan then
    [.cueEnd l c.record.id o c.stallTally c.dropTally]
  else []

/-- The CUE START notice of a cue's first word, where the cue has NOTIFY START (R37, R91). -/
def cueStartOf (l : LaneId) (c : Cue) (begun : Bool) (row : Option Row) (generation : Option Byte) : List Notice :=
  if begun = false ∧ c.notifyStart = true then [.cueStart l c.id row generation] else []

/-! ## Halts -/

/-- What follows the halt of lane `l` when it has set halt-together off in a group, and when it has not (R125). -/
def State.together (s : State) (l : LaneId) : Option GroupName → State
  | some g => s.haltOthers l g
  | none => s

/-! ## Invariants -/

/-- The sequence numbers run on by 1, modulo 256 (R131). -/
def consecutive : List NoticeEntry → Bool
  | [] => true
  | [_] => true
  | x :: y :: es => decide (y.seq = x.seq + 1) && consecutive (y :: es)

/-- At most 32 entries with consecutive numbers, the next number following the last (R131). -/
def NoticeQueue.wf (q : NoticeQueue) : Bool :=
  decide (q.entries.length ≤ 32) && consecutive q.entries &&
    match q.entries.getLast? with
    | none => true
    | some e => decide (q.nextSeq = e.seq + 1)

/-- A host operation's columns lie within one row (R108 to R111). -/
def HostKind.inRow : HostKind → Bool
  | .write start words => decide (start + words.length ≤ 512)
  | .read start count => decide (start + count ≤ 512)
  | .fill first final _ => decide (first ≤ final ∧ final ≤ 511)

/-- The operation in flight keeps to one row. -/
def Operation.inRow : Operation → Bool
  | .host op _ => op.kind.inRow
  | .refill _ _ _ => true
  | .commit _ _ _ _ => true
  | .clear => true

/-- The array is in canonical form and every host operation keeps to one row. -/
structure State.ArraySafe (s : State) : Prop where
  memory : s.array.wf = true
  waiting : ∀ op ∈ s.hostWaiting, op.kind.inRow = true
  inFlight : ∀ f, s.port.inFlight = some f → f.op.inRow = true

/-- The open request table and the transmitter keep their limits (R144, R148). -/
structure State.LinkSafe (s : State) : Prop where
  tags : (s.link.table.map fun e => e.tag).Nodup
  places : s.placesHeld ≤ 8
  refusals : (s.tx.replies.filter fun r => r.kind = .refusal).length ≤ 4
  replyCount : s.tx.replyCount ≤ 4

/-- The host array queue and the host share keep their limits, and a HOST claim has an age (R147, R55, R46). -/
structure State.HostSafe (s : State) : Prop where
  depth : s.hostDepth ≤ 4
  grants : s.port.laneGrants ≤ 3
  noClaim : s.hostWaiting = [] → s.port.laneGrants = 0
  age : s.hostClaimAge = none ↔ s.hostWaiting = []

/-- A lane holds at most 16 cues, no two with one id (R6, R7, R12), and a capture lane none with a repeat other than 1
(R14). -/
structure Lane.CuesSafe (ln : Lane) : Prop where
  count : ln.heldCount ≤ 16
  ids : ln.heldIds.Nodup
  suits : ln.config.mode = .capture → ∀ c ∈ ln.held, c.record.reps = .count 1

/-- An ACTIVE slot is found in RUNNING only, and at most one (R36, R89). -/
structure Lane.ActiveSafe (ln : Lane) : Prop where
  one : ln.slotA.progress?.isSome = true → ln.slotB.progress?.isSome = false
  running : ln.state ≠ .running → ln.activeSlot = none

/-- A state in which a run stays safe. -/
structure State.Safe (s : State) : Prop where
  array : s.ArraySafe
  notices : s.notices.wf = true
  stalls : s.stalls = []
  link : s.LinkSafe
  host : s.HostSafe
  cues : ∀ l, (s.lane l).CuesSafe
  active : ∀ l, (s.lane l).ActiveSafe

end Sys2Proof.Machine
end

