-- ==== Sys2Proof/Certificates/Slice0/Obligations.lean ====
section
/-! DEFINITION. The statements about the PL-4 that the provers are asked to prove. -/

open Sys2Proof Sys2Proof.Machine

/-! ## The step -/

/-- A step takes the command at the front of the queue and runs it with the queue's rest (the model's queue, log entry 2).
-/
def Obligations.StepRunsFrontCommand : Prop :=
  ∀ (c : Instr) (rest : List Instr) (s : State),
    step { s with pending := c :: rest } = exec c { s with pending := rest }

/-- With no command waiting, 5 ns pass and the events that fall due join the queue in some order; in hard reset nothing
happens (the model's choice, log entries 3, 4). An INTERNAL divider falls due divider times 25 ns after its start, an
operation at its grant plus its port time, a frame's end after ten bit times a byte, and the idle expiry of a frame being
received 32 bit times after its last stop bit, where the host has not begun a further character by then (R26, R48, R139, R142,
R148; whether it has is a free value, log entry 37). Port times by Table 3-2, bit times by Table 9-1, and the 32 bit times by
Table 9-3 (R105). -/
def Obligations.IdleStepPassesTime : Prop :=
  ∀ s : State,
    (s.pending = [] → s.resetn = false → step s = .next s) ∧
    (s.pending = [] → s.resetn = true →
      let late := { s with now := s.now + 5 }
      ∃ events : List Instr, events.Perm late.due ∧ step s = .next { late with pending := events }) ∧
    (∀ l, (∃ ld lqv, Instr.dividerExpiry l ld lqv ∈ s.due) ↔
      ∃ d, (s.lane l).config.clock = .internal d ∧ (s.lane l).dividerStart + d * 25 ≤ s.now) ∧
    (∀ f, s.port.inFlight = some f → (f.op.completion ∈ s.due ↔ f.grantedAt + f.op.duration ≤ s.now)) ∧
    (s.port.inFlight = none → Instr.refillCompletion ∉ s.due ∧ Instr.commitCompletion ∉ s.due ∧
      Instr.hostOperationCompletion ∉ s.due ∧ Instr.arrayClearCompletion ∉ s.due) ∧
    (Instr.transmitterFrameEnd ∈ s.due ↔
      ∃ f, s.tx.sending = some f ∧ f.startedAt + f.frame.length * 10 * s.link.rate.bitNs ≤ s.now) ∧
    (∀ l n res half, (Operation.refill l n res).duration = 1280 ∧ (Operation.commit l n res half).duration = 1280) ∧
    (∀ (op : HostOp) (res : Resolution), (Operation.host op res).duration =
      match op.kind with
      | .write start words => if start < 256 ∧ 256 < start + words.length then 2560 else 1280
      | .read start count => if start < 256 ∧ 256 < start + count then 2560 else 1280
      | .fill first final _ => if first < 256 ∧ 256 ≤ final then 2560 else 1280) ∧
    Operation.clear.duration = 5242880 ∧
    (Instr.idleExpiry ∈ s.due ↔
      s.link.receiver.state ≠ .hunting ∧ s.link.receiver.lastStop + s.link.rate.idleNs ≤ s.now ∧
        Config.startBitInTime s.link.receiver.lastStop = false) ∧
    [LinkRate.half, .one, .two, .four].map (fun r => (r.bitNs, r.idleNs)) =
      [(2000, 64000), (1000, 32000), (500, 16000), (250, 8000)]

/-! ## Arrival and dispatch of requests -/

/-- Arrival in the order of R144: NOT READY during a device reset, NOROOM with all places held, TAG IN USE; each leaves
everything but the reply list and the NOROOM counter alone. A NOROOM refusal that is dropped counts twice (the model's
reading, log entry 13). -/
def Obligations.ArrivalRefusalsInOrder : Prop :=
  ∀ (code tag : Byte) (payload : List Byte) (s : State), s.Arrives payload →
    (s.link.deviceReset ≠ none →
      exec (requestOf code tag payload) s = .next (s.heard.refused tag code .notReady).transmit) ∧
    (s.link.deviceReset = none → 8 ≤ s.placesHeld →
      exec (requestOf code tag payload) s =
        .next (({ s.heard with link := { s.heard.link with noRoom := satInc s.link.noRoom } }).refused
          tag code .noRoom).transmit) ∧
    (s.link.deviceReset = none → s.placesHeld < 8 → (∃ e ∈ s.link.table, e.tag = tag) →
      exec (requestOf code tag payload) s = .next (s.heard.refused tag code .tagInUse).transmit)

/-- Checks 1 and 2 of Table 9-4: a code that is no request code is UNKNOWN REQUEST; a length other than the one Table 10-6
gives the code, or the one its count field as received requires, is MALFORMED; a CUE POST count of 0 or above 8 with the
length it requires is BAD FIELD. Check 3: a lane above 3, a group that is neither G1 nor G2, a field of a cue record, a row
reference, a range of columns, a configuration field, a mode or a clear byte out of its range is BAD FIELD (R5, R11, R23,
R42, R45, R109 to R111, R145, R151, R158). The alias and GROUP CONFIG fields stand with their requests. -/
def Obligations.DispatchChecksCodeAndLength : Prop :=
  ∀ (code tag : Byte) (payload : List Byte) (s : State), s.Admits tag payload →
    (code ∉ requestCodes →
      exec (.unknownRequest tag code payload) s = .next (s.replied tag code .unknownRequest .none).transmit) ∧
    (∀ n, (code, n) ∈ [((0x11 : Byte), 1), (0x12, 1), (0x20, 9), (0x21, 1), (0x22, 2), (0x23, 1), (0x24, 2), (0x31, 7),
        (0x32, 8), (0x40, 3), (0x41, 1), (0x42, 1), (0x50, 3), (0x51, 1), (0x52, 1), (0x53, 1), (0x60, 0), (0x71, 1),
        (0x72, 0)] → payload.length ≠ n →
      exec (requestOf code tag payload) s = .next (s.replied tag code .malformed .none).transmit) ∧
    (∀ lane count rest, payload = lane :: count :: rest →
      (rest.length ≠ 10 * count.toNat →
        exec (.cuePost tag payload) s = .next (s.replied tag 0x10 .malformed .none).transmit) ∧
      (rest.length = 10 * count.toNat → count.toNat = 0 ∨ 8 < count.toNat →
        exec (.cuePost tag payload) s = .next (s.replied tag 0x10 .badField .none).transmit)) ∧
    (∀ kind lo hi sLo sHi kLo kHi rest, payload = kind :: lo :: hi :: sLo :: sHi :: kLo :: kHi :: rest →
      rest.length ≠ kLo.toNat + 256 * kHi.toNat →
      exec (.rowWrite tag payload) s = .next (s.replied tag 0x30 .malformed .none).transmit) ∧
    (∀ b : Byte, payload = [b] → 4 ≤ b.toNat → ∀ code ∈ [(0x11 : Byte), 0x12, 0x21, 0x23],
      exec (requestOf code tag payload) s = .next (s.replied tag code .badField .none).transmit) ∧
    (∀ b : Byte, payload = [b] → (b.toNat = 0 ∨ 3 ≤ b.toNat) → ∀ code ∈ [(0x51 : Byte), 0x52, 0x53],
      exec (requestOf code tag payload) s = .next (s.replied tag code .badField .none).transmit) ∧
    (let refused (code : Byte) := exec (requestOf code tag payload) s = .next (s.replied tag code .badField .none).transmit
    let badRef (kind lo hi : Byte) := 2 ≤ kind.toNat ∨ (kind.toNat = 0 ∧ 2048 ≤ lo.toNat + 256 * hi.toNat) ∨
      (kind.toNat = 1 ∧ 64 ≤ lo.toNat + 256 * hi.toNat)
    let badRange (sLo sHi kLo kHi : Byte) := kLo.toNat + 256 * kHi.toNat = 0 ∨
      512 < sLo.toNat + 256 * sHi.toNat + (kLo.toNat + 256 * kHi.toNat)
    (∀ lane count rest, payload = lane :: count :: rest → rest.length = 10 * count.toNat → 4 ≤ lane.toNat →
      refused 0x10) ∧
    (∀ lane count before id kind lo hi half tap last repLo repHi flags after,
      payload = lane :: count :: (before ++ [id, kind, lo, hi, half, tap, last, repLo, repHi, flags] ++ after) →
      before.length % 10 = 0 → before.length + 10 + after.length = 10 * count.toNat →
      (badRef kind lo hi ∨ 2 ≤ half.toNat ∨ repLo.toNat + 256 * repHi.toNat = 0 ∨
        (255 ≤ repLo.toNat + 256 * repHi.toNat ∧ repLo.toNat + 256 * repHi.toNat ≠ 0x8000) ∨ 32 ≤ flags.toNat ∨
        (flags.getLsbD 4 = true ∧ last.toNat < tap.toNat)) → refused 0x10) ∧
    (∀ lane mode clock dLo dHi idle stall dry group : Byte,
      payload = [lane, mode, clock, dLo, dHi, idle, stall, dry, group] →
      (4 ≤ lane.toNat ∨ 2 ≤ mode.toNat ∨ 2 ≤ clock.toNat ∨ (clock.toNat = 0 ∧ dLo.toNat + 256 * dHi.toNat < 2) ∨
        5 ≤ stall.toNat ∨ 2 ≤ dry.toNat ∨ 3 ≤ group.toNat) → refused 0x20) ∧
    (∀ lane b : Byte, payload = [lane, b] → (4 ≤ lane.toNat ∨ 2 ≤ b.toNat) → refused 0x22 ∧ refused 0x24) ∧
    (∀ b : Byte, payload = [b] → 2 ≤ b.toNat → refused 0x71) ∧
    (∀ kind lo hi sLo sHi kLo kHi words, payload = kind :: lo :: hi :: sLo :: sHi :: kLo :: kHi :: words →
      (badRef kind lo hi ∨ badRange sLo sHi kLo kHi) →
      (words.length = kLo.toNat + 256 * kHi.toNat → refused 0x30) ∧ (words = [] → refused 0x31)) ∧
    (∀ kind lo hi fLo fHi tLo tHi word : Byte, payload = [kind, lo, hi, fLo, fHi, tLo, tHi, word] →
      (badRef kind lo hi ∨ 511 < tLo.toNat + 256 * tHi.toNat ∨
        tLo.toNat + 256 * tHi.toNat < fLo.toNat + 256 * fHi.toNat) → refused 0x32))

/-! ## Cues -/

/-- The bytes of a CUE POST carry its lane and its cues, in order, field by field. -/
def Obligations.CuePostBytesReadBack : Prop :=
  ∀ (l : LaneId) (cues : List Cue), 1 ≤ cues.length → cues.length ≤ 8 → (∀ c ∈ cues, c.inRange = true) →
    parseCuePost (postBytes l cues) = .fields (l, cues)

/-- The checks of Table 1-9 from 3 on, in order; a refused post leaves the lane as it was. Every lane state but ENDING and
RESETTING takes a post. -/
def Obligations.PostRefusedInOrder : Prop :=
  ∀ (tag : Byte) (payload : List Byte) (l : LaneId) (cues : List Cue) (s : State),
    parseCuePost payload = .fields (l, cues) → s.Admits tag payload →
    let ln := s.lane l
    let suits := ln.config.mode = .capture → ∀ c ∈ cues, c.reps = .count 1
    let fresh := (cues.map fun c => c.id).Nodup ∧ ∀ c ∈ cues, c.id ∉ ln.heldIds
    let refused (st : Status) := exec (.cuePost tag payload) s = .next (s.replied tag 0x10 st .none).transmit
    (∀ st : LaneState, st.takesPost = true ↔
      st = .idle ∨ st = .priming ∨ st = .ready ∨ st = .running ∨ (∃ cause, st = .stalled cause) ∨ ∃ r, st = .halted r) ∧
    ((ln.state = .resetting ∨ ∃ r ids, ln.state = .ending r ids) → refused .wrongState) ∧
    (ln.state.takesPost = true → ¬ suits → refused .badField) ∧
    (ln.state.takesPost = true → suits → ¬ fresh → refused .duplicateCue) ∧
    (ln.state.takesPost = true → suits → fresh → 16 < ln.heldCount + cues.length → refused .queueFull)

/-- An accepted post joins the tail with tallies 0 and the next places in post order; staging follows, a PRIMING lane may
become READY, and a stalled capture lane resumes with the slot it staged (R13, R9, R33, R90, R94, R97). Every lane state but
ENDING and RESETTING takes a post (R11). Selection and the groups follow (log entries 24, 25). -/
def Obligations.PostJoinsAndStages : Prop :=
  ∀ (tag : Byte) (payload : List Byte) (l : LaneId) (cues : List Cue) (s : State),
    parseCuePost payload = .fields (l, cues) → s.Admits tag payload →
    let ln := s.lane l
    (ln.state = .idle ∨ ln.state = .priming ∨ ln.state = .ready ∨ ln.state = .running ∨
      (∃ cause, ln.state = .stalled cause) ∨ ∃ r, ln.state = .halted r) →
    (ln.config.mode = .capture → ∀ c ∈ cues, c.reps = .count 1) →
    (cues.map fun c => c.id).Nodup → (∀ c ∈ cues, c.id ∉ ln.heldIds) → ln.heldCount + cues.length ≤ 16 →
    let posted : Lane :=
      { ln with
        queue := ln.queue ++ cues.mapIdx fun i c =>
          { record := c, order := ln.nextOrder + i, stallTally := 0, dropTally := 0 }
        nextOrder := ln.nextOrder + cues.length }
    let staged := posted.stage (s.event + 1)
    let after : Lane :=
      if staged.state = .priming ∧ staged.firstReady = true then { staged with state := .ready }
      else if staged.config.mode = .capture ∧ staged.state.stallCause? ≠ none then
        match staged.oldestWhere Slot.isAssigned with
        | some n => staged.run n
        | none => staged
      else staged
    exec (.cuePost tag payload) s = .next ((s.replied tag 0x10 .ok .none).setLane l after).endEvent.transmit

/-- A flush empties the queue, reports the count, and retires the cues FLUSHED oldest first: a CUE END for each with NOTIFY
END. Slots and lane state stay. -/
def Obligations.FlushRetiresWaitingCues : Prop :=
  ∀ (tag lane : Byte) (l : LaneId) (s : State), readLane lane = some l → s.Admits tag [lane] →
    (s.lane l).state ≠ .resetting →
    exec (.cueFlush tag [lane]) s =
      .next (((s.replied tag 0x11 .ok (.flushed (s.lane l).queue.length)).setLane l
        { s.lane l with queue := [] }).offerAll
          ((s.lane l).queue.flatMap fun c => cueEndOf l c .flushed)).transmit

/-- The requests that only report, CUE LIST, LANE STATUS without clear and GROUP STATUS, change nothing but the reply list;
LANE STATUS with clear also clears the three counters, after reporting them (R17, R45, R127). -/
def Obligations.ReportsCarryTheLaneAndGroup : Prop :=
  ∀ (tag b : Byte) (s : State), s.Admits tag [b] →
    (∀ l, readLane b = some l → (s.lane l).state ≠ .resetting →
      exec (.cueList tag [b]) s = .next (s.replied tag 0x12 .ok (.cueList
        { state := (s.lane l).state, active := (s.lane l).activeSlot,
          slotA := { status := (s.lane l).slotA.status, cue := (s.lane l).slotA.cue?.map fun c => c.record.id },
          slotB := { status := (s.lane l).slotB.status, cue := (s.lane l).slotB.cue?.map fun c => c.record.id },
          waiting := (s.lane l).queue.map fun c => c.record.id })).transmit) ∧
    (∀ l clear clearByte, readLane b = some l → readBit clearByte = some clear →
      exec (.laneStatus tag [b, clearByte]) s =
        let ln := s.lane l
        let replied := s.replied tag 0x24 .ok (.laneStatus
          { state := ln.state, stallCause := ln.state.stallCause?, haltReason := ln.state.haltReason?,
            active := ln.activeSlot, pointer := ln.progress?.map fun p => p.pointer,
            repsLeft := ln.progress?.map fun p => p.repsLeft,
            slotA := { status := ln.slotA.status, cue := ln.slotA.cue?.map fun c => c.record.id },
            slotB := { status := ln.slotB.status, cue := ln.slotB.cue?.map fun c => c.record.id },
            waiting := ln.queue.length, stallBeats := ln.stallBeats, lateCues := ln.lateCues,
            droppedWords := ln.droppedWords })
        .next (if clear then replied.setLane l { ln with stallBeats := 0, lateCues := 0, droppedWords := 0 }
          else replied).transmit) ∧
    (∀ g, readGroup b = some g →
      exec (.groupStatus tag [b]) s = .next (s.replied tag 0x53 .ok (.groupStatus
        { group := s.group g,
          members := ([.l0, .l1, .l2, .l3].filter fun l => (s.lane l).config.group = some g).map
            fun l => (l, (s.lane l).state) })).transmit)

/-! ## Lane requests -/

/-- A lane in RESETTING refuses the requests that act on it, with WRONG STATE and nothing changed (R15, R17, R23, R42, R43;
R31 once the array is READY). -/
def Obligations.ResettingLaneRefuses : Prop :=
  ∀ (tag lane : Byte) (l : LaneId) (s : State), readLane lane = some l → (s.lane l).state = .resetting →
    (s.Admits tag [lane] →
      exec (.cueFlush tag [lane]) s = .next (s.replied tag 0x11 .wrongState .none).transmit ∧
      exec (.cueList tag [lane]) s = .next (s.replied tag 0x12 .wrongState .none).transmit ∧
      exec (.laneReset tag [lane]) s = .next (s.replied tag 0x23 .wrongState .none).transmit ∧
      (s.arrayState = .ready →
        exec (.laneStart tag [lane]) s = .next (s.replied tag 0x21 .wrongState .none).transmit)) ∧
    (∀ m mode, readStop m = some mode → s.Admits tag [lane, m] →
      exec (.laneStop tag [lane, m]) s = .next (s.replied tag 0x22 .wrongState .none).transmit) ∧
    (∀ payload r, parseLaneConfig payload = .fields r → r.lane = l → s.Admits tag payload →
      exec (.laneConfig tag payload) s = .next (s.replied tag 0x20 .wrongState .none).transmit)

/-- LANE CONFIG: WRONG STATE outside IDLE and HALTED, and for a change of mode with a cue held or a slot DISCARDING; then
BAD FIELD for a stall policy that does not suit the mode; otherwise the six fields are replaced at once, with the default of
the mode for an absent stall policy, and the pins, the last word and the divider follow (R14, R23 to R26, R29, R86). The
moment of the lane's last LCK edge stays (the model's choice, log entry 35). -/
def Obligations.LaneConfigTakenOrRefused : Prop :=
  ∀ (tag : Byte) (payload : List Byte) (r : ConfigRequest) (s : State),
    parseLaneConfig payload = .fields r → s.Admits tag payload →
    let ln := s.lane r.lane
    let changesHeld := r.mode ≠ ln.config.mode ∧ (ln.heldCount ≠ 0 ∨ ln.slotA = .discarding ∨ ln.slotB = .discarding)
    let unsuited := (r.mode = .play ∧ r.stall = some .drop) ∨
      (r.mode = .capture ∧ (r.stall = some .hold ∨ r.stall = some .skip))
    (∀ st : LaneState, st.isStopped = true ↔ st = .idle ∨ ∃ reason, st = .halted reason) ∧
    (ln.state.isStopped = false ∨ changesHeld →
      exec (.laneConfig tag payload) s = .next (s.replied tag 0x20 .wrongState .none).transmit) ∧
    (ln.state.isStopped = true → ¬ changesHeld → unsuited →
      exec (.laneConfig tag payload) s = .next (s.replied tag 0x20 .badField .none).transmit) ∧
    (ln.state.isStopped = true → ¬ changesHeld → ¬ unsuited →
      exec (.laneConfig tag payload) s = .next ((s.replied tag 0x20 .ok .none).setLane r.lane
        { ln with
          config :=
            { mode := r.mode, clock := r.clock, idleWord := r.idleWord,
              stall := r.stall.getD (match r.mode with
                | .play => .hold
                | .capture => .drop),
              dry := r.dry, group := r.group }
          lastWord := r.idleWord
          dividerStart := s.now
          pins := match r.mode with
            | .play => { ld := some r.idleWord, lqv := some false, lmk := false }
            | .capture => { ld := none, lqv := none, lmk := false } }).transmit)

/-- LANE START: NOT READY while the array is INITIALISING, WRONG STATE outside IDLE and HALTED or with the lane's group
FIRED; otherwise the lane enters PRIMING and stages, and is READY at once when its first slot is. With both slots EMPTY the
head cue goes to slot A and the next to slot B: STAGED with claims of this event's age in play mode, ASSIGNED in capture
mode (R10, R31, R32, R33, R90). A lane stages in PRIMING, READY, RUNNING and STALLED only, and the head cue goes to the EMPTY slot
or, of two, to slot A. Selection and the groups follow (log entries 24, 25). -/
def Obligations.LaneStartPrimesAndStages : Prop :=
  ∀ (tag lane : Byte) (l : LaneId) (s : State), readLane lane = some l → s.Admits tag [lane] →
    let ln := s.lane l
    let groupFired := ∃ g, ln.config.group = some g ∧ (s.group g).state = .fired
    let primed : Lane :=
      { ln with
        state := .priming, lastCue := none, stopPending := false, awaitingFirstBeat := false
        pins := match ln.config.mode with
          | .play => { ld := some ln.config.idleWord, lqv := some false, lmk := false }
          | .capture => { ld := none, lqv := none, lmk := false } }
    let staged := primed.stage (s.event + 1)
    (∀ st : LaneState, st.isStopped = true ↔ st = .idle ∨ ∃ reason, st = .halted reason) ∧
    (s.arrayState = .initialising →
      exec (.laneStart tag [lane]) s = .next (s.replied tag 0x21 .notReady .none).transmit) ∧
    (s.arrayState = .ready → ln.state.isStopped = false ∨ groupFired →
      exec (.laneStart tag [lane]) s = .next (s.replied tag 0x21 .wrongState .none).transmit) ∧
    (s.arrayState = .ready → ln.state.isStopped = true → ¬ groupFired →
      exec (.laneStart tag [lane]) s = .next ((s.replied tag 0x21 .ok .none).setLane l
        (if staged.firstReady = true then { staged with state := .ready } else staged)).endEvent.transmit) ∧
    (∀ x y rest, ln.slotA = .empty → ln.slotB = .empty → ln.queue = x :: y :: rest →
      staged = { primed with
        queue := rest
        slotA := match ln.config.mode with
          | .play => .staged x (s.event + 1)
          | .capture => .assigned x
        slotB := match ln.config.mode with
          | .play => .staged y (s.event + 1)
          | .capture => .assigned y }) ∧
    (∀ (u : Lane) (age : Nat),
      let entered (c : HeldCue) : Slot := match u.config.mode with
        | .play => .staged c age
        | .capture => .assigned c
      (u.state.stages = false ∨ u.queue = [] ∨ (u.slotA ≠ .empty ∧ u.slotB ≠ .empty) → u.stage age = u) ∧
      (∀ x rest, u.state.stages = true → u.queue = x :: rest → u.slotA = .empty → u.slotB ≠ .empty →
        u.stage age = { u with slotA := entered x, queue := rest }) ∧
      (∀ x rest, u.state.stages = true → u.queue = x :: rest → u.slotA ≠ .empty → u.slotB = .empty →
        u.stage age = { u with slotB := entered x, queue := rest }) ∧
      (∀ x, u.state.stages = true → u.queue = [x] → u.slotA = .empty → u.slotB = .empty →
        u.stage age = { u with slotA := entered x, queue := [] }) ∧
      (u.state.stages = true ↔
        u.state = .priming ∨ u.state = .ready ∨ u.state = .running ∨ ∃ cause, u.state = .stalled cause))

/-- LANE STOP NOW. A play lane halts with reason REQUEST: Table 4-2 for the slots, the returned cues at the queue's head,
the idle word on LD, the begun cue's CUE END ahead of LANE HALTED. A capture lane enters ENDING with its commits kept, or,
where it owes none, HALTED at once with its LANE HALTED (R42, R79 to R82, R99, R100; log entry 23). Each slot follows Table 4-2
or 5-4: a LOADING one becomes DISCARDING, a begun capture places the commit of tap to pointer - 1; a begun play cue is PLAYED
where its final word was shown and CUT otherwise (R81; log entry 18), and a cue that has not begun is returned, in post order
(R21, R80). A halt acts on PRIMING, READY, RUNNING and STALLED (R78), and halt-together follows it where it is set off, as
`HaltTogetherReachesRunningMembers` says (R125). Selection and the groups follow (log entries 24, 25). -/
def Obligations.StopNowHaltsTheLane : Prop :=
  (∀ (tag lane : Byte) (l : LaneId) (s : State), readLane lane = some l → s.Admits tag [lane, 0] →
    let ln := s.lane l
    ln.state.canHalt = true →
    let ids := ln.returned.map fun c => c.record.id
    let replied := s.replied tag 0x22 .ok .none
    let stopped (st : LaneState) (pins : Pins) : Lane :=
      { ln with
        state := st
        slotA := ln.slotA.afterHalt (s.event + 1), slotB := ln.slotB.afterHalt (s.event + 1)
        queue := ln.returned ++ ln.queue
        stopPending := false, awaitingFirstBeat := false
        pins := pins }
    let undriven : Pins := { ld := none, lqv := none, lmk := false }
    (ln.config.mode = .play →
      exec (.laneStop tag [lane, 0]) s = .next (((replied.setLane l
        (stopped (.halted .request) { ld := some ln.config.idleWord, lqv := some false, lmk := false })).offerAll
        ((match ln.halted? with
          | some (c, o) => cueEndOf l c o
          | none => []) ++ [.laneHalted l .request ln.lastCue ids])).together l
        (s.cascades l .request)).endEvent.transmit) ∧
    (ln.config.mode = .capture →
      exec (.laneStop tag [lane, 0]) s = .next ((
        if (ln.slotA.afterHalt (s.event + 1)).owesCommit || (ln.slotB.afterHalt (s.event + 1)).owesCommit then
          replied.setLane l (stopped (.ending .request ids) undriven)
        else (replied.setLane l (stopped (.halted .request) undriven)).offer
          (.laneHalted l .request ln.lastCue ids)).together l (s.cascades l .request)).endEvent.transmit)) ∧
  (∀ st : LaneState, st.canHalt = true ↔ st = .priming ∨ st = .ready ∨ st = .running ∨ ∃ cause, st = .stalled cause) ∧
  (∀ (age placed : Nat) (c : HeldCue) (other : Option HeldCue) (words : List Byte) (res : Resolution) (p : Progress)
    (range : ColumnRange),
    ([.empty, .staged c placed, .loading c, .loaded c words res, .playing c words res p, .discarding, .assigned c,
        .commitWait c words range placed, .committing other words range] : List Slot).map (Slot.afterHalt age) =
      [.empty, .empty, .discarding, .empty, .empty, .discarding, .empty, .commitWait c words range placed,
        .committing other words range] ∧
    (p.begun = false → (Slot.capturing c words p).afterHalt age = .empty) ∧
    (p.begun = true → (Slot.capturing c words p).afterHalt age =
      .commitWait c words { first := c.record.tap, last := p.pointer - 1 } age) ∧
    ([.empty, .staged c placed, .loading c, .loaded c words res, .discarding, .assigned c,
        .commitWait c words range placed, .committing other words range] : List Slot).map Slot.returned? =
      [none, some c, some c, some c, none, some c, none, none] ∧
    (p.begun = false → (Slot.playing c words res p).returned? = some c ∧ (Slot.capturing c words p).returned? = some c ∧
      (Slot.playing c words res p).halted? = none) ∧
    (p.begun = true → (Slot.playing c words res p).returned? = none ∧ (Slot.capturing c words p).returned? = none ∧
      (Slot.playing c words res p).halted? = some (c, if p.finalShown then .played else .cut))) ∧
  (∀ ln : Lane,
    (∀ n, ln.activeSlot = some n → ln.halted? = (ln.slot n).halted?) ∧ (ln.activeSlot = none → ln.halted? = none) ∧
    ln.returned.Perm (ln.slotA.returned?.toList ++ ln.slotB.returned?.toList) ∧
    ln.returned.Pairwise fun x y => x.order ≤ y.order)

/-- LANE STOP AT END makes stop pending true on a RUNNING lane, but for a fired play lane before its first beat; in PRIMING,
READY and STALLED, and on such a fired lane, it does what LANE STOP NOW does; either mode of LANE STOP leaves an IDLE, HALTED
or ENDING lane as it is (R42, Table 2-8). Selection and the groups follow (log entries 24, 25). -/
def Obligations.StopAtEndAndStopWithoutEffect : Prop :=
  ∀ (tag lane m : Byte) (mode : StopMode) (l : LaneId) (s : State),
    readLane lane = some l → readStop m = some mode → s.Admits tag [lane, m] →
    (mode = .atEnd → (s.lane l).state = .running →
      ((s.lane l).config.mode = .capture ∨ (s.lane l).awaitingFirstBeat = false) →
      exec (.laneStop tag [lane, m]) s = .next ((s.replied tag 0x22 .ok .none).setLane l
        { s.lane l with stopPending := true }).endEvent.transmit) ∧
    (mode = .atEnd →
      ((s.lane l).state = .priming ∨ (s.lane l).state = .ready ∨ (∃ cause, (s.lane l).state = .stalled cause) ∨
        ((s.lane l).state = .running ∧ (s.lane l).config.mode = .play ∧ (s.lane l).awaitingFirstBeat = true)) →
      exec (.laneStop tag [lane, m]) s = exec (.laneStop tag [lane, 0]) s) ∧
    (((s.lane l).state = .idle ∨ (∃ r, (s.lane l).state = .halted r) ∨ ∃ r ids, (s.lane l).state = .ending r ids) →
      exec (.laneStop tag [lane, m]) s = .next (s.replied tag 0x22 .ok .none).endEvent.transmit)

/-- LANE RESET withdraws claims and removes cues; with no operation of the lane in flight it ends at once in IDLE, keeping
the configuration, the divider's phase and the group; otherwise the lane waits in RESETTING and the request stays open. A
LOADING slot becomes DISCARDING, a COMMITTING one loses its cue, and every other slot becomes EMPTY (R43, R44; log entry 35).
Selection and the groups follow (log entries 24, 25). -/
def Obligations.LaneResetEndsOrWaits : Prop :=
  (∀ (tag lane : Byte) (l : LaneId) (s : State), readLane lane = some l → s.Admits tag [lane] →
    (s.lane l).state ≠ .resetting →
    let ln := s.lane l
    let quiet : Pins := match ln.config.mode with
      | .play => { ld := some ln.config.idleWord, lqv := some false, lmk := false }
      | .capture => { ld := none, lqv := none, lmk := false }
    let waits := ln.slotA.afterReset.holdsReset || ln.slotB.afterReset.holdsReset
    (waits = false →
      exec (.laneReset tag [lane]) s = .next ((s.replied tag 0x23 .ok .none).setLane l
        { Lane.reset with
          config := ln.config, lastWord := ln.config.idleWord, pins := quiet
          dividerStart := ln.dividerStart, lastEdge := ln.lastEdge }).endEvent.transmit) ∧
    (waits = true →
      exec (.laneReset tag [lane]) s = .next ((s.keptOpen tag 0x23 [lane]).setLane l
        { ln with
          state := .resetting, slotA := ln.slotA.afterReset, slotB := ln.slotB.afterReset, queue := []
          stopPending := false, awaitingFirstBeat := false, pins := quiet }).endEvent.transmit)) ∧
  ∀ (age : Nat) (c : HeldCue) (other : Option HeldCue) (words : List Byte) (res : Resolution) (p : Progress)
    (range : ColumnRange),
    ([.empty, .staged c age, .loading c, .loaded c words res, .playing c words res p, .discarding, .assigned c,
        .capturing c words p, .commitWait c words range age, .committing other words range] : List Slot).map
        (fun x => (x.afterReset, x.afterReset.holdsReset)) =
      [(.empty, false), (.empty, false), (.discarding, true), (.empty, false), (.empty, false), (.discarding, true),
        (.empty, false), (.empty, false), (.empty, false), (.committing none words range, true)]

/-! ## Array and alias requests -/

/-- ROW WRITE, ROW READ and ROW FILL: NOT READY while the array is INITIALISING, then BUSY with four operations held;
otherwise the operation joins the tail of the host array queue and the request stays open (R147). With no other operation
waiting it is the HOST claim, of this event's age (R46). Selection and the groups follow (log entries 24, 25). -/
def Obligations.RowRequestsJoinHostQueue : Prop :=
  ∀ (tag : Byte) (payload : List Byte) (ref : RowRef) (kind : HostKind) (s : State), s.Admits tag payload →
    let outcome (c : Instr) (code : Byte) :=
      (s.arrayState = .initialising → exec c s = .next (s.replied tag code .notReady .none).transmit) ∧
      (s.arrayState = .ready → 4 ≤ s.hostDepth → exec c s = .next (s.replied tag code .busy .none).transmit) ∧
      (s.arrayState = .ready → s.hostDepth < 4 →
        exec c s = .next (State.endEvent { s.keptOpen tag code payload with
          hostWaiting := s.hostWaiting ++ [{ tag := tag, ref := ref, kind := kind }]
          hostClaimAge := if s.hostWaiting = [] then some (s.event + 1) else s.hostClaimAge }).transmit)
    (parseRowWrite payload = .fields (ref, kind) → outcome (.rowWrite tag payload) 0x30) ∧
    (parseRowRead payload = .fields (ref, kind) → outcome (.rowRead tag payload) 0x31) ∧
    (parseRowFill payload = .fields (ref, kind) → outcome (.rowFill tag payload) 0x32)

/-- ALIAS BIND: BAD FIELD out of range; else the entry is BOUND to the row and its generation rises by 1, wrapping, and
nothing else changes; a later selection resolves the alias to the new row and generation (R114). -/
def Obligations.AliasBindRaisesGeneration : Prop :=
  ∀ (tag number lo hi : Byte) (s : State), s.Admits tag [number, lo, hi] →
    let row := lo.toNat + 256 * hi.toNat
    (64 ≤ number.toNat ∨ 2048 ≤ row →
      exec (.aliasBind tag [number, lo, hi]) s = .next (s.replied tag 0x40 .badField .none).transmit) ∧
    (∀ (n : AliasNo) (r : Row), n.val = number.toNat → r.val = row →
      let entry : AliasEntry := { row := some r, generation := (s.aliasAt n).generation + 1 }
      exec (.aliasBind tag [number, lo, hi]) s =
        .next ((s.replied tag 0x40 .ok (.aliasEntry n entry)).setAlias n entry).transmit ∧
      (s.setAlias n entry).resolve (.aliased n) = some { row := r, generation := some entry.generation })

/-- ALIAS UNBIND: a BOUND entry loses its row and its generation rises; an UNBOUND one stays; BAD FIELD above 63. A later
selection finds the alias unbound (R115). -/
def Obligations.AliasUnbindDropsTheRow : Prop :=
  ∀ (tag number : Byte) (s : State), s.Admits tag [number] →
    (64 ≤ number.toNat →
      exec (.aliasUnbind tag [number]) s = .next (s.replied tag 0x41 .badField .none).transmit) ∧
    (∀ n : AliasNo, n.val = number.toNat → (s.aliasAt n).row ≠ none →
      let entry : AliasEntry := { row := none, generation := (s.aliasAt n).generation + 1 }
      exec (.aliasUnbind tag [number]) s =
        .next ((s.replied tag 0x41 .ok (.aliasEntry n entry)).setAlias n entry).transmit ∧
      (s.setAlias n entry).resolve (.aliased n) = none) ∧
    (∀ n : AliasNo, n.val = number.toNat → (s.aliasAt n).row = none →
      exec (.aliasUnbind tag [number]) s =
        .next (s.replied tag 0x41 .ok (.aliasEntry n (s.aliasAt n))).transmit ∧
      s.resolve (.aliased n) = none)

/-- ALIAS QUERY reports the entry and changes nothing, in every array state and lane state; BAD FIELD above 63 (R116). -/
def Obligations.AliasQueryReportsTheEntry : Prop :=
  ∀ (tag number : Byte) (s : State), s.Admits tag [number] →
    (64 ≤ number.toNat →
      exec (.aliasQuery tag [number]) s = .next (s.replied tag 0x42 .badField .none).transmit) ∧
    (∀ n : AliasNo, n.val = number.toNat →
      exec (.aliasQuery tag [number]) s =
        .next (s.replied tag 0x42 .ok (.aliasEntry n (s.aliasAt n))).transmit)

/-! ## Groups -/

/-- GROUP CONFIG: BAD FIELD for a group, a trigger source or a halt together out of its encodings; else it replaces both
settings of an OPEN group and keeps its state, and is WRONG STATE in ARMED and FIRED (R119). -/
def Obligations.GroupConfigOnlyWhileOpen : Prop :=
  ∀ (tag b t h : Byte) (s : State), s.Admits tag [b, t, h] →
    (readGroup b = none ∨ readTrigger t = none ∨ readBit h = none →
      exec (.groupConfig tag [b, t, h]) s = .next (s.replied tag 0x50 .badField .none).transmit) ∧
    (∀ g trigger together, readGroup b = some g → readTrigger t = some trigger → readBit h = some together →
      ((s.group g).state = .opened →
        exec (.groupConfig tag [b, t, h]) s = .next ((s.replied tag 0x50 .ok .none).setGroup g
          { trigger := trigger, haltTogether := together, state := .opened }).transmit) ∧
      ((s.group g).state ≠ .opened →
        exec (.groupConfig tag [b, t, h]) s = .next (s.replied tag 0x50 .wrongState .none).transmit))

/-- GROUP GO fires an ARMED group with trigger source REQUEST: every READY member runs with its first slot ACTIVE and its
internal divider restarted, the group is FIRED, GROUP FIRED lists those members in ascending order, and every other lane
stays; WRONG STATE otherwise. A fired lane's first slot, LOADED or ASSIGNED, is ACTIVE at the cue's tap with begun false, its
first beat is awaited, its pins stay, and an EXTERNAL lane's count is untouched (R34, R88, R121, R123; log entry 19). -/
def Obligations.GroupGoFiresAnArmedGroup : Prop :=
  ∀ (tag b : Byte) (g : GroupName) (s : State), readGroup b = some g → s.Admits tag [b] →
    ((s.group g).trigger ≠ .request ∨ (s.group g).state ≠ .armed →
      exec (.groupGo tag [b]) s = .next (s.replied tag 0x51 .wrongState .none).transmit) ∧
    ((s.group g).trigger = .request → (s.group g).state = .armed →
      ∃ u : State, exec (.groupGo tag [b]) s = .next u.transmit ∧
        u = { s.replied tag 0x51 .ok .none with lanes := u.lanes, groups := u.groups, notices := u.notices } ∧
        (∀ l, u.lane l =
          if (s.lane l).config.group = some g ∧ (s.lane l).state = .ready then (s.lane l).fireAt s.now
          else s.lane l) ∧
        (∀ h, u.group h = if h = g then { s.group g with state := .fired } else s.group h) ∧
        u.notices = s.notices.join (.groupFired g ([.l0, .l1, .l2, .l3].filter fun l =>
          (s.lane l).config.group = some g ∧ (s.lane l).state = .ready))) ∧
    (∀ (ln : Lane) (now : Nat) (n : SlotName) (c : HeldCue) (words : List Byte) (res : Resolution),
      ln.oldestSlot = some n →
      let tap : Progress := { pointer := c.record.tap, repsLeft := c.record.reps, begun := false, finalShown := false }
      let fired (first : Slot) : Lane :=
        { ln.setSlot n first with
          state := .running
          lastCue := some c.record.id
          awaitingFirstBeat := true
          dividerStart := match ln.config.clock with
            | .internal _ => now
            | .external => ln.dividerStart }
      (ln.slot n = .loaded c words res → ln.fireAt now = fired (.playing c words res tap)) ∧
      (ln.slot n = .assigned c → ln.fireAt now = fired (.capturing c [] tap)))

/-- GROUP STOP halts the members in PRIMING, READY, RUNNING and STALLED, each with reason REQUEST and without halt-together,
and touches no other lane. A play member halts by Table 4-2, a capture member by Table 5-4, as LANE STOP NOW does it; the
notices of the members stand in ascending lane order, and each member's CUE END stands ahead of its LANE HALTED (R126, R79 to
R82, R99, R100; log entry 23). Selection and the groups follow (log entries 24, 25). -/
def Obligations.GroupStopHaltsMembers : Prop :=
  ∀ (tag b : Byte) (g : GroupName) (s : State), readGroup b = some g → s.Admits tag [b] →
    let member (l : LaneId) := (s.lane l).config.group = some g ∧ (s.lane l).state.canHalt = true
    let ids (ln : Lane) := ln.returned.map fun c => c.record.id
    let owes (ln : Lane) := (ln.slotA.afterHalt (s.event + 1)).owesCommit || (ln.slotB.afterHalt (s.event + 1)).owesCommit
    let stopped (ln : Lane) : Lane :=
      { ln with
        state := match ln.config.mode with
          | .play => .halted .request
          | .capture => if owes ln then .ending .request (ids ln) else .halted .request
        slotA := ln.slotA.afterHalt (s.event + 1), slotB := ln.slotB.afterHalt (s.event + 1)
        queue := ln.returned ++ ln.queue
        stopPending := false, awaitingFirstBeat := false
        pins := match ln.config.mode with
          | .play => { ld := some ln.config.idleWord, lqv := some false, lmk := false }
          | .capture => { ld := none, lqv := none, lmk := false } }
    let told (l : LaneId) : List Notice :=
      let ln := s.lane l
      match ln.config.mode with
      | .play => (match ln.halted? with
          | some (c, o) => cueEndOf l c o
          | none => []) ++ [.laneHalted l .request ln.lastCue (ids ln)]
      | .capture => if owes ln then [] else [.laneHalted l .request ln.lastCue (ids ln)]
    let after (l : LaneId) : Lane := if member l then stopped (s.lane l) else s.lane l
    (∀ st : LaneState, st.canHalt = true ↔ st = .priming ∨ st = .ready ∨ st = .running ∨ ∃ cause, st = .stalled cause) ∧
    exec (.groupStop tag [b]) s = .next (State.offerAll
      { s.replied tag 0x52 .ok .none with
        lanes := { l0 := after .l0, l1 := after .l1, l2 := after .l2, l3 := after .l3 } }
      (([.l0, .l1, .l2, .l3].filter fun l => member l).flatMap told)).endEvent.transmit

/-- Halt-together: when a member of a FIRED group with halt together YES halts for another reason than GROUP, every other
RUNNING or STALLED member halts with reason GROUP; every other lane and every group stays. A halt is the lane's own, by Table
4-2 or 5-4, with its CUE END ahead of its LANE HALTED, and halt-together behind it: first the notices of the originating
member, then those of each member in ascending lane order (R78 to R82, R99, R100, R125; log entry 23). -/
def Obligations.HaltTogetherReachesRunningMembers : Prop :=
  ∀ (s : State) (l : LaneId) (reason : HaltReason),
    let ids (ln : Lane) := ln.returned.map fun c => c.record.id
    let owes (ln : Lane) := (ln.slotA.afterHalt s.event).owesCommit || (ln.slotB.afterHalt s.event).owesCommit
    let stopped (why : HaltReason) (ln : Lane) : Lane :=
      { ln with
        state := match ln.config.mode with
          | .play => .halted why
          | .capture => if owes ln then .ending why (ids ln) else .halted why
        slotA := ln.slotA.afterHalt s.event, slotB := ln.slotB.afterHalt s.event
        queue := ln.returned ++ ln.queue
        stopPending := false, awaitingFirstBeat := false
        pins := match ln.config.mode with
          | .play => { ld := some ln.config.idleWord, lqv := some false, lmk := false }
          | .capture => { ld := none, lqv := none, lmk := false } }
    let told (why : HaltReason) (m : LaneId) : List Notice :=
      let ln := s.lane m
      match ln.config.mode with
      | .play => (match ln.halted? with
          | some (c, o) => cueEndOf m c o
          | none => []) ++ [.laneHalted m why ln.lastCue (ids ln)]
      | .capture => if owes ln then [] else [.laneHalted m why ln.lastCue (ids ln)]
    (∀ st : LaneState, (st.canHalt = true ↔ st = .priming ∨ st = .ready ∨ st = .running ∨ ∃ cause, st = .stalled cause) ∧
      (st.runsOrStalls = true ↔ st = .running ∨ ∃ cause, st = .stalled cause)) ∧
    (∀ g, s.cascades l reason = some g ↔
      (s.lane l).config.group = some g ∧ (s.group g).state = .fired ∧ (s.group g).haltTogether = true ∧
        (s.lane l).state.canHalt = true ∧ reason ≠ .group) ∧
    ((s.lane l).state.canHalt = false → s.haltOne l reason = s) ∧
    ((s.lane l).state.canHalt = true →
      s.haltOne l reason = (s.setLane l (stopped reason (s.lane l))).offerAll (told reason l)) ∧
    s.halt l reason = (s.haltOne l reason).together l (s.cascades l reason) ∧
    (∀ g,
      let reached (m : LaneId) := m ≠ l ∧ (s.lane m).config.group = some g ∧ (s.lane m).state.runsOrStalls = true
      let after (m : LaneId) : Lane := if reached m then stopped .group (s.lane m) else s.lane m
      s.together l (some g) = State.offerAll
        { s with lanes := { l0 := after .l0, l1 := after .l1, l2 := after .l2, l3 := after .l3 } }
        (([.l0, .l1, .l2, .l3].filter fun m => reached m).flatMap (told .group))) ∧
    (∀ g, s.cascades l reason = some g →
      let t := s.halt l reason
      let reached (m : LaneId) := (s.lane m).config.group = some g ∧ (s.lane m).state.runsOrStalls = true
      t = { s with lanes := t.lanes, notices := t.notices } ∧
      t.lane l = (s.haltOne l reason).lane l ∧
      (s.link.deviceReset = none → t.notices = s.notices.joinAll
        (told reason l ++ ([.l0, .l1, .l2, .l3].filter fun m => m ≠ l ∧ reached m).flatMap (told .group))) ∧
      ∀ m, m ≠ l → t.lane m = if reached m then stopped .group (s.lane m) else s.lane m)

/-- A TRIG edge: a group that waits for its kind fires when ARMED, or queues one TRIGGER IGNORED in OPEN and FIRED; a group
that waits for another kind or for a request does nothing; the two groups' notices stand in either order (log entry 17). A
level that has not held for 50 ns, or that has not changed, is no edge (R122, R123; log entry 12). -/
def Obligations.TrigEdgeReachesBothGroups : Prop :=
  ∀ (level : Bool) (heldNs : Nat) (s : State), s.resetn = true → s.link.deviceReset = none →
    (level = s.trigLevel ∨ heldNs < 50 →
      exec (.trigEdge level heldNs) s = .next { s with event := s.event + 1 }.transmit) ∧
    (level ≠ s.trigLevel → 50 ≤ heldNs →
      let fires (g : GroupName) := (s.group g).trigger.waitsFor level = true ∧ (s.group g).state = .armed
      let started (g : GroupName) (l : LaneId) := (s.lane l).config.group = some g ∧ (s.lane l).state = .ready
      let notice (g : GroupName) : List Notice :=
        if (s.group g).trigger.waitsFor level = true then
          if (s.group g).state = .armed then [.groupFired g ([.l0, .l1, .l2, .l3].filter fun l => started g l)]
          else [.triggerIgnored g (s.group g).state]
        else []
      ∃ u : State, exec (.trigEdge level heldNs) s = .next u.transmit ∧
        u = { s with event := s.event + 1, trigLevel := level, lanes := u.lanes, groups := u.groups,
                     notices := u.notices } ∧
        (∀ l g, started g l → fires g → u.lane l = (s.lane l).fireAt s.now) ∧
        (∀ l, (∀ g, started g l → ¬ fires g) → u.lane l = s.lane l) ∧
        (∀ g, u.group g = if fires g then { s.group g with state := .fired } else s.group g) ∧
        (u.notices = s.notices.joinAll (notice .g1 ++ notice .g2) ∨
          u.notices = s.notices.joinAll (notice .g2 ++ notice .g1))) ∧
    TriggerSource.pinRise.waitsFor level = level ∧ TriggerSource.pinFall.waitsFor level = !level ∧
    TriggerSource.request.waitsFor level = false

/-- At the end of an event an OPEN or ARMED group is ARMED exactly when a member is READY and none PRIMING, and a FIRED
group stays FIRED exactly while a member is RUNNING, STALLED or ENDING; settings, lanes and the rest stay (R120, R124). -/
def Obligations.GroupsFollowTheirMembers : Prop :=
  ∀ (s : State) (g : GroupName),
    let member (p : LaneState → Bool) := ∃ l, (s.lane l).config.group = some g ∧ p (s.lane l).state = true
    let t := s.regroup
    t = { s with groups := t.groups } ∧
    (t.group g).trigger = (s.group g).trigger ∧ (t.group g).haltTogether = (s.group g).haltTogether ∧
    ((s.group g).state ≠ .fired →
      ((t.group g).state = .armed ↔
        member (fun st => st = .ready) ∧ ¬ member (fun st => st = .priming)) ∧ (t.group g).state ≠ .fired) ∧
    ((s.group g).state = .fired →
      ((t.group g).state = .fired ↔ member LaneState.keepsFired) ∧ (t.group g).state ≠ .armed) ∧
    ∀ st : LaneState, st.keepsFired = true ↔
      st = .running ∨ (∃ cause, st = .stalled cause) ∨ ∃ reason ids, st = .ending reason ids

/-! ## Beats -/

/-- The divider of an INTERNAL lane and an LCK edge of an EXTERNAL lane at least 50 ns after the last edge it took as a beat
are beats; an LCK edge of an INTERNAL lane, or one that comes too soon, is none, and neither is an expiry of an EXTERNAL
lane's divider, which only begins its count again (log entry 30). An edge that is a beat is the one the next is measured from,
and a refused edge is not; `edge` is the moment it falls. A beat changes nothing in IDLE, PRIMING, HALTED, ENDING and
RESETTING, in READY of a grouped lane, and in STALLED with cause DRY in capture mode or with no slot LOADED (R26, R27, R28,
R34, R41, R97; log entry 35). Selection and the groups follow (log entries 24, 25). -/
def Obligations.BeatsComeFromTheClockSource : Prop :=
  ∀ (l : LaneId) (afterNs : Nat) (ld : Byte) (lqv : Bool) (s : State),
    let ln := s.lane l
    let edge := s.now + afterNs
    let heard := { s with event := s.event + 1 }
    (∀ d, s.resetn = true → ln.config.clock = .internal d →
      exec (.dividerExpiry l ld lqv) s =
        .next ((heard.setLane l { ln with dividerStart := s.now }).beat l ld lqv).endEvent.transmit ∧
      exec (.lckEdge l afterNs ld lqv) s = .next heard.transmit) ∧
    (s.resetn = true → ln.config.clock = .external →
      exec (.dividerExpiry l ld lqv) s = .next (heard.setLane l { ln with dividerStart := s.now }).transmit ∧
      ((ln.lastEdge = none ∨ ∃ t, ln.lastEdge = some t ∧ t + 50 ≤ edge) →
        exec (.lckEdge l afterNs ld lqv) s =
          .next ((heard.setLane l { ln with lastEdge := some edge }).beat l ld lqv).endEvent.transmit) ∧
      (∀ t, ln.lastEdge = some t → edge < t + 50 → exec (.lckEdge l afterNs ld lqv) s = .next heard.transmit)) ∧
    (ln.state = .idle ∨ ln.state = .priming ∨ (∃ r, ln.state = .halted r) ∨ (∃ r ids, ln.state = .ending r ids) ∨
      ln.state = .resetting → s.beat l ld lqv = s) ∧
    (ln.state = .ready → ln.config.group ≠ none → s.beat l ld lqv = s) ∧
    (ln.state = .stalled .dry → ln.slotA.isLoaded = false → ln.slotB.isLoaded = false → s.beat l ld lqv = s) ∧
    (ln.state = .stalled .dry → ln.config.mode = .capture → s.beat l ld lqv = s)

/-- A play beat that does not reach its cue's span end: the word at the pointer on LD with LQV high, LMK and CUE START at
the cue's first word only. Before the last column the pointer moves on by one; at the last column of a repetition that is
not the last it returns to the tap and the count falls by 1; a CONTINUOUS cue begins again while the other slot is not
LOADED. Nothing else changes (R37, R38, R30, R4, R40). -/
def Obligations.PlayBeatPresentsTheNextWord : Prop :=
  ∀ (l : LaneId) (ld : Byte) (lqv : Bool) (s : State) (n : SlotName) (c : HeldCue) (words : List Byte)
    (res : Resolution) (p : Progress) (w : Byte),
    let ln := s.lane l
    ln.state = .running → ln.config.mode = .play → ln.activeSlot = some n → ln.slot n = .playing c words res p →
    c.record.tap.toNat ≤ p.pointer.toNat → words[p.pointer.toNat - c.record.tap.toNat]? = some w →
    let shown (q : Progress) : State := (s.setLane l
      { ln.setSlot n (.playing c words res q) with
        lastWord := w
        pins := { ld := some w, lqv := some true, lmk := !p.begun && c.record.mark }
        awaitingFirstBeat := false }).offerAll (cueStartOf l c.record p.begun (some res.row) res.generation)
    (p.pointer.toNat < c.record.last.toNat →
      s.beat l ld lqv =
        shown { pointer := p.pointer + 1, repsLeft := p.repsLeft, begun := true, finalShown := false }) ∧
    (∀ k, c.record.last.toNat ≤ p.pointer.toNat → ln.stopPending = false → p.repsLeft = .count (k + 2) →
      s.beat l ld lqv =
        shown { pointer := c.record.tap, repsLeft := .count (k + 1), begun := true, finalShown := false }) ∧
    (c.record.last.toNat ≤ p.pointer.toNat → ln.stopPending = false → p.repsLeft = .continuous →
      (ln.slot n.other).isLoaded = false →
      s.beat l ld lqv =
        shown { pointer := c.record.tap, repsLeft := .continuous, begun := true, finalShown := true })

/-- An ungrouped READY lane becomes RUNNING at its beat with its first slot ACTIVE, and the same beat acts on it; so does
the beat at which a stalled play lane finds its awaited slot LOADED (R34, R70, R73, R41). A capture lane's first slot is
ASSIGNED, and the same beat is its first capture beat (R88, R90). -/
def Obligations.StartAndResumeTakeTheBeat : Prop :=
  (∀ (l : LaneId) (ld : Byte) (lqv : Bool) (s : State) (n : SlotName) (c : HeldCue) (words : List Byte)
    (res : Resolution),
    let ln := s.lane l
    let running : Lane :=
      { ln.setSlot n (.playing c words res
          { pointer := c.record.tap, repsLeft := c.record.reps, begun := false, finalShown := false }) with
        state := .running, lastCue := some c.record.id }
    ln.config.mode = .play → ln.slot n = .loaded c words res → ln.activeSlot = none →
    (ln.state = .ready ∧ ln.config.group = none ∧ ln.oldestSlot = some n ∨
      ln.state = .stalled .dry ∧ ln.oldestSlot = some n ∨
      ln.state = .stalled .underrun ∧ ln.config.stall ≠ .skip ∧ ln.oldestSlot = some n ∨
      ln.state = .stalled .underrun ∧ ln.config.stall = .skip ∧ ln.oldestWhere Slot.isLoaded = some n) →
    s.beat l ld lqv = (s.setLane l running).beat l ld lqv) ∧
  (∀ (l : LaneId) (ld : Byte) (lqv : Bool) (s : State) (n : SlotName) (c : HeldCue),
    let ln := s.lane l
    ln.state = .ready → ln.config.mode = .capture → ln.config.group = none → ln.oldestSlot = some n →
    ln.slot n = .assigned c → ln.activeSlot = none →
    let running : Lane :=
      { ln.setSlot n (.capturing c []
          { pointer := c.record.tap, repsLeft := c.record.reps, begun := false, finalShown := false }) with
        state := .running, lastCue := some c.record.id }
    s.beat l ld lqv = (s.setLane l running).beat l ld lqv ∧ running.activeSlot = some n)

/-- The beat of a cue's final word, or of any repetition's last word of a CONTINUOUS cue, with the other slot LOADED: the
cue is retired PLAYED, the other slot becomes ACTIVE with no beat lost, and staging into the emptied slot follows (R39, R40).
The CUE START of a cue of one word stands ahead of its CUE END (the model's reading, log entry 36). -/
def Obligations.SpanEndRetiresAndSwitches : Prop :=
  ∀ (l : LaneId) (ld : Byte) (lqv : Bool) (s : State) (n : SlotName) (c next : HeldCue) (words nextWords : List Byte)
    (res nextRes : Resolution) (p : Progress) (w : Byte),
    let ln := s.lane l
    ln.state = .running → ln.config.mode = .play → ln.activeSlot = some n → ln.slot n = .playing c words res p →
    c.record.tap.toNat ≤ p.pointer.toNat → words[p.pointer.toNat - c.record.tap.toNat]? = some w →
    c.record.last.toNat ≤ p.pointer.toNat → ln.stopPending = false →
    (p.repsLeft = .count 1 ∨ p.repsLeft = .continuous) → c.record.haltAfter = false →
    ln.slot n.other = .loaded next nextWords nextRes →
    let switched : Lane :=
      { (ln.setSlot n .empty).setSlot n.other (.playing next nextWords nextRes
          { pointer := next.record.tap, repsLeft := next.record.reps, begun := false, finalShown := false }) with
        lastCue := some next.record.id
        lastWord := w
        pins := { ld := some w, lqv := some true, lmk := !p.begun && c.record.mark }
        awaitingFirstBeat := false }
    s.beat l ld lqv = (s.setLane l (switched.stage s.event)).offerAll
      (cueStartOf l c.record p.begun (some res.row) res.generation ++ cueEndOf l c .played)

/-- Four ends of a play cue. A pending stop halts the lane with reason REQUEST at the end of the repetition: the cue is PLAYED
where that was its last repetition or it is CONTINUOUS, and CUT otherwise. A cue with HALT AFTER is retired PLAYED at its span
end, or as a CONTINUOUS cue at its supersession, and the lane halts with reason END. Running dry, a span end with the other
slot EMPTY and no cue waiting, stalls the lane with cause DRY on the idle word under WAIT, or halts it with reason END under
STOP. LANE HALTED follows the CUE END, and a LANE STALL is owed to the end of the event (R37 to R42, R77, R79 to R82; log
entries 18, 34). Halt-together follows a halt that sets it off (R125). The CUE START of a cue of one word stands ahead of its
CUE END (the model's reading, log entry 36). -/
def Obligations.PlayLaneRunsDry : Prop :=
  ∀ (l : LaneId) (ld : Byte) (lqv : Bool) (s : State) (n : SlotName) (c : HeldCue) (words : List Byte)
    (res : Resolution) (p : Progress) (w : Byte),
    let ln := s.lane l
    ln.state = .running → ln.config.mode = .play → ln.activeSlot = some n → ln.slot n = .playing c words res p →
    c.record.tap.toNat ≤ p.pointer.toNat → words[p.pointer.toNat - c.record.tap.toNat]? = some w →
    c.record.last.toNat ≤ p.pointer.toNat →
    let other := ln.slot n.other
    let idlePins : Pins := { ld := some ln.config.idleWord, lqv := some false, lmk := false }
    let after (st : LaneState) : Lane :=
      { ln.setSlot n .empty with state := st, lastWord := w, awaitingFirstBeat := false, pins := idlePins }
    let halted (reason : HaltReason) : Lane :=
      { (after (.halted reason)).setSlot n.other (other.afterHalt s.event) with
        queue := other.returned?.toList ++ ln.queue, stopPending := false }
    let told (o : CueOutcome) : List Notice :=
      cueStartOf l c.record p.begun (some res.row) res.generation ++ cueEndOf l c o
    let returned : List Byte := other.returned?.toList.map fun x => x.record.id
    let outcome : CueOutcome := match p.repsLeft with
      | .count k => if k ≤ 1 then .played else .cut
      | .continuous => .played
    (ln.stopPending = true →
      s.beat l ld lqv = ((s.setLane l (halted .request)).offerAll
        (told outcome ++ [.laneHalted l .request ln.lastCue returned])).together l (s.cascades l .request)) ∧
    (ln.stopPending = false → c.record.haltAfter = true →
      ((p.repsLeft = .count 1 ∧ other.progress? = none) ∨ (p.repsLeft = .continuous ∧ other.isLoaded = true)) →
      s.beat l ld lqv = ((s.setLane l (halted .ended)).offerAll
        (told .played ++ [.laneHalted l .ended ln.lastCue returned])).together l (s.cascades l .ended)) ∧
    (ln.stopPending = false → p.repsLeft = .count 1 → c.record.haltAfter = false → other = .empty → ln.queue = [] →
      (ln.config.dry = .wait →
        s.beat l ld lqv = ((s.setLane l (after (.stalled .dry))).offerAll (told .played)).oweStall
          l c.record.id .dry) ∧
      (ln.config.dry = .stop →
        s.beat l ld lqv = ((s.setLane l (after (.halted .ended))).offerAll
          (told .played ++ [.laneHalted l .ended ln.lastCue []])).together l (s.cascades l .ended)))

/-- The three stall policies at an underrun: the other slot STAGED, LOADING or DISCARDING, or EMPTY with cues waiting. HOLD
keeps the last word and the late cue, and stages. SKIP retires the late cue of a STAGED or LOADING slot LATE, makes its slot
EMPTY or DISCARDING, drives the idle word and stages. A lane that then holds no cue meets its dry policy in the UNDERRUN's
place. HALT halts with reason UNDERRUN, returns the late cue and stages nothing. Each LANE STALL is owed to the end of its
event, where it stands behind every CUE END (R67 to R69, R72, R74, R76, R77; log entry 34). Halt-together follows a halt that
sets it off (R125). The CUE START of a cue of one word stands ahead of its CUE END (the model's reading, log entry 36). -/
def Obligations.StallPolicyActsAtUnderrun : Prop :=
  (∀ (l : LaneId) (ld : Byte) (lqv : Bool) (s : State) (n : SlotName) (c : HeldCue) (words : List Byte)
    (res : Resolution) (p : Progress) (w : Byte),
    let ln := s.lane l
    let other := ln.slot n.other
    ln.state = .running → ln.config.mode = .play → ln.activeSlot = some n → ln.slot n = .playing c words res p →
    c.record.tap.toNat ≤ p.pointer.toNat → words[p.pointer.toNat - c.record.tap.toNat]? = some w →
    c.record.last.toNat ≤ p.pointer.toNat → ln.stopPending = false → p.repsLeft = .count 1 →
    c.record.haltAfter = false →
    ((∃ x age, other = .staged x age) ∨ (∃ x, other = .loading x) ∨ other = .discarding ∨
      (other = .empty ∧ ln.queue ≠ [])) →
    let idlePins : Pins := { ld := some ln.config.idleWord, lqv := some false, lmk := false }
    let base : Lane := { ln.setSlot n .empty with lastWord := w, awaitingFirstBeat := false }
    let first := cueStartOf l c.record p.begun (some res.row) res.generation ++ cueEndOf l c .played
    let late : Option HeldCue := match other with
      | .staged x _ => some x
      | .loading x => some x
      | _ => none
    let stalled (u : Lane) (told : List Notice) (lastRetired : Byte) : Prop :=
      (u.held ≠ [] → s.beat l ld lqv = ((s.setLane l u).offerAll told).oweStall l c.record.id .underrun) ∧
      (u.held = [] → ln.config.dry = .wait →
        s.beat l ld lqv = ((s.setLane l { u with state := .stalled .dry, pins := idlePins }).offerAll told).oweStall
          l lastRetired .dry) ∧
      (u.held = [] → ln.config.dry = .stop →
        s.beat l ld lqv = ((s.setLane l { u with state := .halted .ended, pins := idlePins }).offerAll
          (told ++ [.laneHalted l .ended ln.lastCue []])).together l (s.cascades l .ended))
    (ln.config.stall = .hold →
      stalled ({ base with
        state := .stalled .underrun, pins := { ld := some w, lqv := some false, lmk := false } }.stage s.event)
        first c.record.id) ∧
    (ln.config.stall = .skip → late = none →
      stalled ({ base with state := .stalled .underrun, pins := idlePins }.stage s.event) first c.record.id) ∧
    (∀ x, ln.config.stall = .skip → late = some x →
      stalled ({ base.setSlot n.other (other.afterHalt s.event) with
          state := .stalled .underrun, pins := idlePins, lateCues := satInc ln.lateCues }.stage s.event)
        (first ++ cueEndOf l x .late) x.record.id) ∧
    (ln.config.stall = .halt →
      s.beat l ld lqv = ((s.setLane l
        { base.setSlot n.other (other.afterHalt s.event) with
          state := .halted .underrun, queue := late.toList ++ ln.queue, pins := idlePins }).offerAll
        (first ++ [.laneHalted l .underrun ln.lastCue (late.toList.map fun x => x.record.id)])).together
        l (s.cascades l .underrun))) ∧
  (∀ (u : State) (l : LaneId) (id : Byte) (cause : StallCause),
    u.oweStall l id cause = { u with stalls := u.stalls ++ [{ lane := l, cue := id, cause := cause }] }) ∧
  (∀ u : State,
    u.endEvent = (State.offerAll { u.select with stalls := [] }
      (u.select.stalls.map fun x => .laneStall x.lane x.cue x.cause)).regroup)

/-- A stall beat: a play lane stalled UNDERRUN that does not resume adds 1 to its counter and to the stall tally of its
current cue. It does not resume while no slot is LOADED, nor, under HOLD, while the slot of its oldest slot cue is not LOADED,
whatever the other slot holds. In OVERRUN each qualified word is dropped and adds 1 to the counter and to the drop tally of
the queue's head; a beat with LQV low counts nothing. All saturate, and nothing else changes (R20, R70, R73, R75, R94, R96).
-/
def Obligations.StalledBeatsAreCounted : Prop :=
  ∀ (l : LaneId) (ld : Byte) (lqv : Bool) (s : State),
    let ln := s.lane l
    (ln.state = .stalled .underrun → ln.config.mode = .play →
      ((ln.slotA.isLoaded = false ∧ ln.slotB.isLoaded = false) ∨
        (ln.config.stall = .hold ∧ ∃ n, ln.oldestSlot = some n ∧ (ln.slot n).isLoaded = false)) →
      ln.activeSlot = none →
      let counted : Lane := { ln with stallBeats := satInc ln.stallBeats }
      let told (c : HeldCue) : HeldCue := { c with stallTally := satInc c.stallTally }
      (∀ n c, ln.oldestWhere Slot.canBecomeActive = some n → ln.slot n = .loading c →
        s.beat l ld lqv = s.setLane l (counted.setSlot n (.loading (told c)))) ∧
      (∀ n c age, ln.oldestWhere Slot.canBecomeActive = some n → ln.slot n = .staged c age →
        s.beat l ld lqv = s.setLane l (counted.setSlot n (.staged (told c) age))) ∧
      (∀ c qs, ln.oldestWhere Slot.canBecomeActive = none → ln.queue = c :: qs →
        s.beat l ld lqv = s.setLane l { counted with queue := told c :: qs }) ∧
      (ln.oldestWhere Slot.canBecomeActive = none → ln.queue = [] → s.beat l ld lqv = s.setLane l counted)) ∧
    (ln.state = .stalled .overrun → ln.config.mode = .capture → ln.slotA.owesCommit = true →
      ln.slotB.owesCommit = true →
      s.beat l ld false = s ∧
      (ln.queue = [] → s.beat l ld true = s.setLane l { ln with droppedWords := satInc ln.droppedWords }) ∧
      (∀ c qs, ln.queue = c :: qs →
        s.beat l ld true = s.setLane l
          { ln with
            droppedWords := satInc ln.droppedWords
            queue := { c with dropTally := satInc c.dropTally } :: qs }))

/-- A capture beat: with LQV low it takes no word; a qualified word before the last column is written at the pointer, with
LMK and CUE START at the first word only, and the pointer moves on by one column (R91, R88). -/
def Obligations.CaptureBeatTakesQualifiedWord : Prop :=
  ∀ (l : LaneId) (ld : Byte) (s : State) (n : SlotName) (c : HeldCue) (words : List Byte) (p : Progress),
    let ln := s.lane l
    ln.state = .running → ln.config.mode = .capture → ln.activeSlot = some n → ln.slot n = .capturing c words p →
    c.record.tap.toNat + words.length = p.pointer.toNat →
    (s.beat l ld false = s.setLane l
      { ln with awaitingFirstBeat := false, pins := { ln.pins with lmk := false } }) ∧
    (p.pointer.toNat < c.record.last.toNat →
      s.beat l ld true = (s.setLane l
        { ln.setSlot n (.capturing c (words ++ [ld])
            { pointer := p.pointer + 1, repsLeft := p.repsLeft, begun := true, finalShown := p.finalShown }) with
          awaitingFirstBeat := false
          pins := { ln.pins with lmk := !p.begun && c.record.mark } }).offerAll
        (match c.record.ref with
          | .row r => cueStartOf l c.record p.begun (some r) none
          | .aliased a => cueStartOf l c.record p.begun (s.aliasAt a).row (some (s.aliasAt a).generation)))

/-- A capture span end places the commit of tap to last first, then takes the first case of Table 5-3. A pending stop or HALT
AFTER halts the lane into ENDING; an ASSIGNED other slot becomes ACTIVE; one that waits on its commit makes an OVERRUN, which
stalls the lane under DROP and halts it under HALT; an EMPTY one takes the head cue and is ACTIVE at once; with no cue waiting
the dry policy acts. A LANE STALL is owed to the end of the event (R92, R94, R95, R97, R99; log entry 34). Halt-together
follows a halt that sets it off (R125). -/
def Obligations.CaptureSpanEndPlacesItsCommit : Prop :=
  ∀ (l : LaneId) (ld : Byte) (s : State) (n : SlotName) (c : HeldCue) (words : List Byte) (p : Progress),
    let ln := s.lane l
    ln.state = .running → ln.config.mode = .capture → ln.activeSlot = some n → ln.slot n = .capturing c words p →
    c.record.tap.toNat + words.length = p.pointer.toNat → p.pointer = c.record.last →
    let other := ln.slot n.other
    let undriven : Pins := { ld := none, lqv := none, lmk := false }
    let committed : Lane :=
      { ln.setSlot n (.commitWait c (words ++ [ld]) { first := c.record.tap, last := c.record.last } s.event) with
        awaitingFirstBeat := false, pins := { ln.pins with lmk := !p.begun && c.record.mark } }
    let told : List Notice := match c.record.ref with
      | .row r => cueStartOf l c.record p.begun (some r) none
      | .aliased a => cueStartOf l c.record p.begun (s.aliasAt a).row (some (s.aliasAt a).generation)
    let goesOn (u : Lane) := s.beat l ld true = (s.setLane l u).offerAll told
    let stalls (cause : StallCause) := s.beat l ld true =
      ((s.setLane l { committed with state := .stalled cause, pins := undriven }).offerAll told).oweStall
        l c.record.id cause
    let halts (reason : HaltReason) := s.beat l ld true = ((s.setLane l
        { committed.setSlot n.other (other.afterHalt s.event) with
          state := .ending reason (other.returned?.toList.map fun x => x.record.id)
          queue := other.returned?.toList ++ ln.queue, stopPending := false, pins := undriven }).offerAll told).together
      l (s.cascades l reason)
    let active (x : HeldCue) : Slot :=
      .capturing x [] { pointer := x.record.tap, repsLeft := x.record.reps, begun := false, finalShown := false }
    (ln.stopPending = true → halts .request) ∧
    (ln.stopPending = false → c.record.haltAfter = true → halts .ended) ∧
    (ln.stopPending = false → c.record.haltAfter = false →
      (∀ next, other = .assigned next →
        goesOn { committed.setSlot n.other (active next) with lastCue := some next.record.id }) ∧
      (other.owesCommit = true → ln.config.stall = .drop → stalls .overrun) ∧
      (other.owesCommit = true → ln.config.stall = .halt → halts .overrun) ∧
      (∀ x rest, other = .empty → ln.queue = x :: rest →
        goesOn { committed.setSlot n.other (active x) with lastCue := some x.record.id, queue := rest }) ∧
      (other = .empty → ln.queue = [] → ln.config.dry = .wait → stalls .dry) ∧
      (other = .empty → ln.queue = [] → ln.config.dry = .stop → halts .ended))

/-! ## The array port -/

/-- The best lane claim is a pending one that no pending claim ranks before. Runway by Table 3-3, and the classes of R53: a
numbered runway ranks in the first class, anything else by age in the second; within a class the smaller runway or age, then
the lower lane, then the older cue ranks first (R52, R53). -/
def Obligations.BestClaimHasLeastRunway : Prop :=
  ∀ (s : State) (claim : LaneClaim),
    let ln := s.lane claim.lane
    let first (runway : Nat) : Rank :=
      { cls := 0, metric := runway, lane := laneNumber claim.lane, order := claim.cue.order }
    let second : Rank := { cls := 1, metric := claim.age, lane := laneNumber claim.lane, order := claim.cue.order }
    (∀ cause, ln.state = .stalled cause → s.rank claim = first 0) ∧
    (∀ n c p k, ln.state = .running → ln.activeSlot = some n → (ln.slot n).cue? = some c →
      (ln.slot n).progress? = some p → p.repsLeft = .count k →
      s.rank claim = first ((c.record.last.toNat - p.pointer.toNat + 1) +
        (c.record.last.toNat - c.record.tap.toNat + 1) * (k - 1))) ∧
    (∀ n p, ln.state = .running → ln.activeSlot = some n → (ln.slot n).progress? = some p →
      p.repsLeft = .continuous → s.rank claim = second) ∧
    ((ln.state = .priming ∨ ln.state = .ready ∨ ∃ r ids, ln.state = .ending r ids) → s.rank claim = second) ∧
    (s.bestClaim = some claim →
      claim ∈ s.laneClaims ∧ ∀ other ∈ s.laneClaims, (s.rank other).before (s.rank claim) = false) ∧
    (∀ x y : Rank, x.before y = true ↔
      x.cls < y.cls ∨ (x.cls = y.cls ∧ (x.metric < y.metric ∨ (x.metric = y.metric ∧
        (x.lane < y.lane ∨ (x.lane = y.lane ∧ x.order < y.order))))))

/-- Selection and grant with the port FREE: the HOST claim when no lane claim pends or the count is 3, else the best lane
claim; the grant fixes row and generation, sets the count, and makes a STAGED slot LOADING and a COMMIT WAIT slot COMMITTING
(R50, R54, R55, R56). A selected lane claim whose alias is unbound is not granted: its slot becomes EMPTY, its cue is retired
UNBOUND with a CUE END, the lane acts on the slot, and the engine selects again (R57). A HOST claim whose alias is unbound
leaves the host array queue with its UNBOUND reply, the count becomes 0 with none waiting, and the engine selects again
(R58). When the HOST claim leaves, the next waiting operation becomes the HOST claim, of this event's age (R46). -/
def Obligations.SelectionGrantsByHostShare : Prop :=
  ∀ (s : State), s.port.inFlight = none →
    (∀ op rest res, s.hostWaiting = op :: rest → (s.laneClaims = [] ∨ 3 ≤ s.port.laneGrants) →
      s.resolve op.ref = some res →
      s.select = { s with hostWaiting := rest
                          hostClaimAge := if rest = [] then none else some s.event
                          port := { inFlight := some { op := .host op res, grantedAt := s.now }, laneGrants := 0 } }) ∧
    (∀ claim res age, s.bestClaim = some claim → (s.hostWaiting = [] ∨ s.port.laneGrants < 3) →
      (s.lane claim.lane).slot claim.slot = .staged claim.cue age → s.resolve claim.cue.record.ref = some res →
      s.select = { s.setLane claim.lane ((s.lane claim.lane).setSlot claim.slot (.loading claim.cue)) with
        port :=
          { inFlight := some { op := .refill claim.lane claim.slot res, grantedAt := s.now }
            laneGrants := if s.hostWaiting = [] then s.port.laneGrants else s.port.laneGrants + 1 } }) ∧
    (∀ claim res words range age, s.bestClaim = some claim → (s.hostWaiting = [] ∨ s.port.laneGrants < 3) →
      (s.lane claim.lane).slot claim.slot = .commitWait claim.cue words range age →
      s.resolve claim.cue.record.ref = some res →
      s.select = { s.setLane claim.lane
          ((s.lane claim.lane).setSlot claim.slot (.committing (some claim.cue) words range)) with
        port :=
          { inFlight := some
              { op := .commit claim.lane claim.slot res claim.cue.record.half, grantedAt := s.now }
            laneGrants := if s.hostWaiting = [] then s.port.laneGrants else s.port.laneGrants + 1 } }) ∧
    (∀ claim, s.bestClaim = some claim → (s.hostWaiting = [] ∨ s.port.laneGrants < 3) →
      s.resolve claim.cue.record.ref = none →
      s.select = (((s.setLane claim.lane ((s.lane claim.lane).setSlot claim.slot .empty)).offerAll
        (cueEndOf claim.lane claim.cue .unbound)).settleLane claim.lane claim.cue.record.id).select) ∧
    (∀ op rest e, s.hostWaiting = op :: rest → (s.laneClaims = [] ∨ 3 ≤ s.port.laneGrants) →
      s.resolve op.ref = none → s.entryOf op.tag = some e →
      s.select = State.select
        { s with
          hostWaiting := rest
          hostClaimAge := if rest = [] then none else some s.event
          port := { s.port with laneGrants := if rest = [] then 0 else s.port.laneGrants }
          link := { s.link with table := s.link.table.filter fun x => x.tag ≠ op.tag }
          tx := { s.tx with replies := s.tx.replies ++
            [{ kind := .answer, tag := op.tag, code := e.code, status := .unbound, fields := .none }] } })

/-- One selection event ends with a grant or with the pending set empty, however many claims prove unbound (R57, R58). -/
def Obligations.SelectionEndsBusyOrEmpty : Prop :=
  ∀ s : State, s.select.port.inFlight ≠ none ∨ (s.select.laneClaims = [] ∧ s.select.hostWaiting = [])

/-- A refill's completion: a LOADING slot takes the words of the cue's half, columns tap to last, as the array holds them,
with the row and generation fixed at the grant; a DISCARDING slot drops them. The lane then stages and acts by its state: a
PRIMING lane whose first slot is ready becomes READY; a play lane stalled UNDERRUN that holds no cue goes DRY or halts; a
RESETTING lane with nothing in flight becomes IDLE, and the OK of its LANE RESET is handed over; READY, RUNNING, IDLE and
HALTED lanes, and a play lane stalled DRY, do nothing more (R9, R33, R35, R44, R51, R60, R68, R84; log entry 35). A LANE STALL
with cause DRY is owed to the end of the event, in the place of one with cause UNDERRUN of the same event (R68; log entry 34);
where a dropped refill brings it about it names the lane's last cue, or 0 where the lane has none (the model's choice, log
entry 29). Halt-together follows a halt that sets it off (R125). A device reset that waited for the completion ends (R154).
Selection and the groups follow (log entries 24, 25). -/
def Obligations.RefillCompletionLoadsTheSpan : Prop :=
  (∀ (s : State) (l : LaneId) (n : SlotName) (res : Resolution) (t0 : Nat),
    s.resetn = true → s.port.inFlight = some { op := .refill l n res, grantedAt := t0 } →
    let free : State := { s with event := s.event + 1, port := { s.port with inFlight := none } }
    (∀ c, (s.lane l).slot n = .loading c → c.record.tap.toNat ≤ c.record.last.toNat →
      ∃ words : List Byte,
        words.length = c.record.last.toNat - c.record.tap.toNat + 1 ∧
        (∀ i, i < words.length → words[i]? = some (s.array.read (res.row.val * 512 +
          (match c.record.half with
            | .lower => c.record.tap.toNat
            | .upper => 256 + c.record.tap.toNat) + i))) ∧
        exec .refillCompletion s = .next ((free.setLane l
          ((s.lane l).setSlot n (.loaded c words res))).settleLane l c.record.id).endDeviceReset.endEvent.transmit) ∧
    ((s.lane l).slot n = .discarding →
      exec .refillCompletion s = .next ((free.setLane l
        ((s.lane l).setSlot n .empty)).settleLane l ((s.lane l).lastCue.getD 0)).endDeviceReset.endEvent.transmit)) ∧
  (∀ (u : State) (l : LaneId) (id : Byte),
    let was := u.lane l
    let ln := was.stage u.event
    let idlePins : Pins := { ld := some ln.config.idleWord, lqv := some false, lmk := false }
    let excused : State := { u with stalls := u.stalls.filter fun x => ¬ (x.lane = l ∧ x.cause = .underrun) }
    let fresh : Lane :=
      { Lane.reset with
        config := was.config, lastWord := was.config.idleWord, pins := was.pins, dividerStart := was.dividerStart
        lastEdge := was.lastEdge }
    (was.state = .priming →
      u.settleLane l id = u.setLane l (if ln.firstReady = true then { ln with state := .ready } else ln)) ∧
    (∀ n, ln.oldestSlot = some n → ln.firstReady = (ln.slot n).isReady) ∧
    (ln.oldestSlot = none → ln.firstReady = false) ∧
    (was.state = .ready ∨ was.state = .running ∨ was.state = .idle ∨ (∃ reason, was.state = .halted reason) ∨
        (was.config.mode = .play ∧ was.state = .stalled .dry) →
      u.settleLane l id = u.setLane l ln) ∧
    (was.config.mode = .play → was.state = .stalled .underrun →
      (ln.held ≠ [] → u.settleLane l id = u.setLane l ln) ∧
      (ln.held = [] → ln.config.dry = .wait →
        u.settleLane l id = (excused.setLane l { ln with state := .stalled .dry, pins := idlePins }).oweStall l id .dry) ∧
      (ln.held = [] → ln.config.dry = .stop →
        u.settleLane l id = ((excused.setLane l
          { ln with
            state := .halted .ended, stopPending := false, awaitingFirstBeat := false, pins := idlePins }).offer
          (.laneHalted l .ended ln.lastCue [])).together l (u.cascades l .ended))) ∧
    (was.state = .resetting →
      (was.slotA.holdsReset = true ∨ was.slotB.holdsReset = true → u.settleLane l id = u) ∧
      (was.slotA.holdsReset = false → was.slotB.holdsReset = false →
        ((∀ e ∈ u.link.table, ¬ (e.code = 0x23 ∧ e.payload = [laneByte l])) →
          u.settleLane l id = u.setLane l fresh) ∧
        (∀ e, (u.link.table.find? fun x => decide (x.code = 0x23) && decide (x.payload = [laneByte l])) = some e →
          u.entryOf e.tag = some e →
          u.settleLane l id =
            { u.setLane l fresh with
              link := { u.link with table := u.link.table.filter fun x => x.tag ≠ e.tag }
              tx := { u.tx with replies := u.tx.replies ++
                [{ kind := .answer, tag := e.tag, code := 0x23, status := .ok, fields := .none }] } }))))

/-- A commit's completion writes the words of its range into the row and half fixed at its grant and no other word of the
array; the slot becomes EMPTY; a cue still held is retired CAPTURED or PARTIAL, and a removed one is not (R61, R93, R44). The
lane then stages and acts by its state: a stalled capture lane with an ASSIGNED slot resumes with it ACTIVE; in OVERRUN with a
slot left EMPTY the dry policy acts; ENDING is left, with its LANE HALTED, when no commit is owed; RUNNING and RESETTING act as
at a refill's completion (R94, R97, R100). A LANE STALL is owed to the end of the event (log entry 34), and halt-together
follows a halt that sets it off (R125). A device reset that waited for the completion ends (R154). Selection and the groups
follow (log entries 24, 25). -/
def Obligations.CommitCompletionWritesItsRange : Prop :=
  (∀ (s : State) (l : LaneId) (n : SlotName) (res : Resolution) (half : Half) (t0 : Nat) (cue : Option HeldCue)
    (words : List Byte) (range : ColumnRange),
    s.resetn = true → s.array.wf = true →
    s.port.inFlight = some { op := .commit l n res half, grantedAt := t0 } →
    (s.lane l).slot n = .committing cue words range →
    words.length = range.last.toNat - range.first.toNat + 1 →
    let start := res.row.val * 512 + (match half with
      | .lower => range.first.toNat
      | .upper => 256 + range.first.toNat)
    ∃ array : Memory,
      (∀ key, array.read key = if start ≤ key ∧ key < start + words.length then words.getD (key - start) 0
        else s.array.read key) ∧
      (let written : State :=
        { s.setLane l ((s.lane l).setSlot n .empty) with
          event := s.event + 1, array := array, port := { s.port with inFlight := none } }
      exec .commitCompletion s = .next ((match cue with
        | some c => (written.offerAll (cueEndOf l c
            (if range.last = c.record.last then .captured else .partialSpan))).settleLane l c.record.id
        | none => written.settleLane l 0)).endDeviceReset.endEvent.transmit)) ∧
  (∀ (u : State) (l : LaneId) (id : Byte),
    let was := u.lane l
    let ln := was.stage u.event
    let undriven : Pins := { ld := none, lqv := none, lmk := false }
    (∀ cause, was.config.mode = .capture → was.state = .stalled cause →
      (∀ n x, ln.oldestWhere Slot.isAssigned = some n → ln.slot n = .assigned x →
        u.settleLane l id = u.setLane l
          { ln.setSlot n (.capturing x []
              { pointer := x.record.tap, repsLeft := x.record.reps, begun := false, finalShown := false }) with
            state := .running, lastCue := some x.record.id }) ∧
      (ln.oldestWhere Slot.isAssigned = none →
        (cause ≠ .overrun ∨ (ln.slotA ≠ .empty ∧ ln.slotB ≠ .empty) → u.settleLane l id = u.setLane l ln) ∧
        (cause = .overrun → ln.slotA = .empty ∨ ln.slotB = .empty →
          (ln.config.dry = .wait →
            u.settleLane l id = (u.setLane l { ln with state := .stalled .dry, pins := undriven }).oweStall l id .dry) ∧
          (ln.config.dry = .stop → ln.slotA.owesCommit = true ∨ ln.slotB.owesCommit = true →
            ln.slotA.returned? = none → ln.slotB.returned? = none → ln.activeSlot = none →
            u.settleLane l id = (u.setLane l
              { ln with
                state := .ending .ended [], stopPending := false, awaitingFirstBeat := false, pins := undriven }).together
              l (u.cascades l .ended))))) ∧
    (∀ reason ids, was.state = .ending reason ids →
      (was.slotA.owesCommit = true ∨ was.slotB.owesCommit = true → u.settleLane l id = u) ∧
      (was.slotA.owesCommit = false → was.slotB.owesCommit = false →
        u.settleLane l id = (u.setLane l { was with state := .halted reason }).offer
          (.laneHalted l reason was.lastCue ids))))

/-- A host operation's completion: ROW WRITE puts word k into column start + k, ROW FILL its word into first to final, ROW
READ leaves the array and carries the words in column order; the row's other columns and all other rows stay; the OK reply
carries the row used (R109 to R112). A device reset that waited for the completion ends (R154). Selection and the groups
follow (log entries 24, 25). -/
def Obligations.HostCompletionTakesEffect : Prop :=
  ∀ (s : State) (op : HostOp) (res : Resolution) (t0 : Nat) (e : Entry),
    s.resetn = true → s.array.wf = true → op.kind.inRow = true → s.entryOf op.tag = some e →
    s.port.inFlight = some { op := .host op res, grantedAt := t0 } →
    ∃ (array : Memory) (fields : ReplyFields),
      (∀ key, array.read key =
        match op.kind with
        | .write start words =>
          if res.row.val * 512 + start ≤ key ∧ key < res.row.val * 512 + start + words.length then
            words.getD (key - (res.row.val * 512 + start)) 0
          else s.array.read key
        | .read _ _ => s.array.read key
        | .fill first final word =>
          if res.row.val * 512 + first ≤ key ∧ key ≤ res.row.val * 512 + final then word else s.array.read key) ∧
      (match op.kind with
        | .write _ _ => fields = .rowUsed res
        | .fill _ _ _ => fields = .rowUsed res
        | .read start count => fields = .rowWords res start
            ((List.range count).map fun i => s.array.read (res.row.val * 512 + start + i))) ∧
      exec .hostOperationCompletion s = .next (State.endDeviceReset
        { s with
          event := s.event + 1, array := array, port := { s.port with inFlight := none }
          link := { s.link with table := s.link.table.filter fun x => x.tag ≠ op.tag }
          tx := { s.tx with replies := s.tx.replies ++
            [{ kind := .answer, tag := op.tag, code := e.code, status := .ok, fields := fields }] } }).endEvent.transmit

/-- The array clear's completion leaves every word 00h and the array READY, ends a device reset that waited for it, and then
queues ARRAY READY, which so stands behind that reset's START (R105, R106, R154). Selection and the groups follow (log entries
24, 25). -/
def Obligations.ClearCompletionMakesArrayReady : Prop :=
  ∀ (s : State) (t0 : Nat), s.resetn = true → s.port.inFlight = some { op := .clear, grantedAt := t0 } →
    ∃ array : Memory, (∀ key, array.read key = 0) ∧
      (let cleared : State :=
        { s with
          event := s.event + 1, array := array, arrayState := .ready, port := { s.port with inFlight := none } }
      (s.link.deviceReset = none →
        exec .arrayClearCompletion s =
          .next (State.endEvent { cleared with notices := s.notices.join .arrayReady }).transmit) ∧
      (∀ tag e, s.link.deviceReset = some tag → s.entryOf tag = some e →
        exec .arrayClearCompletion s = .next (State.endEvent
          { cleared with
            link := { s.link with table := s.link.table.filter fun x => x.tag ≠ tag, deviceReset := none }
            tx := { s.tx with replies := s.tx.replies ++
              [{ kind := .answer, tag := tag, code := e.code, status := .ok, fields := .none }] }
            notices := s.notices.joinAll [.start .request s.link.rate, .arrayReady] }).transmit))

/-! ## Notices -/

/-- A NOTICE ACK of a held number removes the entries from the head through it, SENT or UNSENT, and a lost count that is not
0 is reported by NOTICES LOST at the tail and becomes 0; an ACK of a number not held changes nothing, and during a device
reset it finds the queue empty and is ignored (R131, R133, R135, R153). -/
def Obligations.NoticeAckRemovesThroughTheNumber : Prop :=
  ∀ (s : State) (seq : Byte), s.resetn = true →
    (∀ before entry after, s.link.deviceReset = none → s.notices.wf = true →
      s.notices.entries = before ++ entry :: after → entry.seq = seq →
      exec (.noticeAck seq) s = .next (State.transmit
        { s.heard with notices :=
            if s.notices.lost = 0 then { s.notices with entries := after }
            else
              { entries := after ++
                  [{ seq := s.notices.nextSeq, notice := .noticesLost s.notices.lost, sent := false }]
                nextSeq := s.notices.nextSeq + 1, lost := 0 } })) ∧
    (s.notices.wf = true → (∀ entry ∈ s.notices.entries, entry.seq ≠ seq) → exec (.noticeAck seq) s = .next s.heard.transmit) ∧
    (s.link.deviceReset ≠ none → s.notices.entries = [] → exec (.noticeAck seq) s = .next s.heard.transmit)

/-- NOTICE RESEND makes every held entry UNSENT, keeping its number and its items, and answers OK; MALFORMED with a payload,
NOT READY during a device reset (R134). -/
def Obligations.NoticeResendMarksAllUnsent : Prop :=
  ∀ (s : State) (tag : Byte) (payload : List Byte),
    (s.Admits tag [] →
      exec (.noticeResend tag []) s = .next (State.transmit
        { s.replied tag 0x60 .ok .none with
          notices := { s.notices with
            entries := s.notices.entries.map fun e => { seq := e.seq, notice := e.notice, sent := false } } })) ∧
    (s.Admits tag payload → payload ≠ [] →
      exec (.noticeResend tag payload) s = .next (s.replied tag 0x60 .malformed .none).transmit) ∧
    (s.Arrives payload → s.link.deviceReset ≠ none →
      exec (.noticeResend tag payload) s = .next (s.heard.refused tag 0x60 .notReady).transmit)

/-- A discard raises its class's counter, offers LINK ERROR unless one is held, and returns the receiver to HUNTING; an idle
expiry inside a frame, 32 bit times after its last stop bit, is a FRAMING discard, and before that or in HUNTING it is none.
After a character fault a frame whose start bit came before HRX had been high for one bit time is not taken, and nothing is
counted. During a device reset a discard counts and queues no LINK ERROR (R136, R137, R140, R142, R153, Table 9-3; log
entries 11, 26). -/
def Obligations.DiscardCountsAndReports : Prop :=
  ∀ (s : State) (highNs : Nat), s.resetn = true →
    let notices (kind : LinkErrorKind) : NoticeQueue :=
      if s.notices.holdsLinkError = true ∨ s.link.deviceReset ≠ none then s.notices else s.notices.join (.linkError kind)
    let discarded (kind : LinkErrorKind) (blocked : Bool) : State :=
      { s with
        event := s.event + 1, notices := notices kind
        link := { s.link with
          crcErrors := if kind = .crc then satInc s.link.crcErrors else s.link.crcErrors
          framingErrors := if kind = .framing then satInc s.link.framingErrors else s.link.framingErrors
          oversizeErrors := if kind = .oversize then satInc s.link.oversizeErrors else s.link.oversizeErrors
          receiver := { Receiver.hunting with lineBlocked := blocked } } }
    (s.link.receiver.lineBlocked = false ∨ s.link.rate.bitNs ≤ highNs →
      exec (.frameDiscard ⟨.oversize, highNs⟩) s = .next (discarded .oversize false).transmit ∧
      exec (.frameDiscard ⟨.crcMismatch, highNs⟩) s = .next (discarded .crc false).transmit ∧
      exec (.frameDiscard ⟨.characterFault, highNs⟩) s = .next (discarded .framing true).transmit ∧
      exec (.frameDiscard ⟨.wrongKind, highNs⟩) s = .next (discarded .framing false).transmit ∧
      exec (.frameDiscard ⟨.ackLength, highNs⟩) s = .next (discarded .framing false).transmit) ∧
    (s.link.receiver.lineBlocked = true → highNs < s.link.rate.bitNs →
      ∀ case, exec (.frameDiscard ⟨case, highNs⟩) s = .next { s with event := s.event + 1 }.transmit) ∧
    (s.link.receiver.state ≠ .hunting → s.link.receiver.lastStop + 32 * s.link.rate.bitNs ≤ s.now →
      exec .idleExpiry s = .next (discarded .framing false).transmit) ∧
    (s.link.receiver.state = .hunting ∨ s.now < s.link.receiver.lastStop + 32 * s.link.rate.bitNs →
      exec .idleExpiry s = .next { s with event := s.event + 1 }.transmit)

/-! ## The link -/

/-- ECHO answers OK with the same bytes in the same order, whatever they are, and changes no state (R150). -/
def Obligations.EchoReturnsItsBytes : Prop :=
  ∀ (tag : Byte) (payload : List Byte) (s : State), s.Admits tag payload →
    exec (.echo tag payload) s = .next (s.replied tag 0x70 .ok (.echo payload)).transmit

/-- DEVICE STATUS reports the counters as they stood, counting its own entry, and with its clear request sets the four link
counters to 0 in the same event, the lost count and all else left (R151). -/
def Obligations.DeviceStatusReportsAndClears : Prop :=
  ∀ (tag b : Byte) (clear : Bool) (s : State), readBit b = some clear → s.Admits tag [b] →
    let replied := s.replied tag 0x71 .ok (.deviceStatus
      { array := s.arrayState, crcErrors := s.link.crcErrors, framingErrors := s.link.framingErrors,
        oversizeErrors := s.link.oversizeErrors, noRoom := s.link.noRoom, noticeDepth := s.notices.entries.length,
        lost := s.notices.lost, openRequests := s.link.table.length + 1, hostDepth := s.hostDepth,
        lanes := { l0 := (s.lane .l0).state, l1 := (s.lane .l1).state, l2 := (s.lane .l2).state,
                   l3 := (s.lane .l3).state } })
    exec (.deviceStatus tag [b]) s = .next (if clear then
        { replied with link := { replied.link with crcErrors := 0, framingErrors := 0, oversizeErrors := 0, noRoom := 0 } }
      else replied).transmit

/-- DEVICE RESET with the port FREE: every open request is answered ABORTED in arrival order, then its own OK; every lane,
group, alias, the notice queue and the link counters are at their defaults; START with cause REQUEST stands as number 0; the
array, the rate, the frame being sent and the reply count stay (R152, R154, R137, R107), and so does the moment of each lane's
last LCK edge (the model's reading, log entry 35). -/
def Obligations.DeviceResetWithPortFree : Prop :=
  ∀ (tag : Byte) (s : State), s.Admits tag [] → (s.link.table.map fun e => e.tag).Nodup → s.port.inFlight = none →
    (∀ l, (s.lane l).slotA.afterReset.holdsReset = false ∧ (s.lane l).slotB.afterReset.holdsReset = false) →
    exec (.deviceReset tag []) s = .next (State.transmit
      { s.heard with
        port := { inFlight := none, laneGrants := 0 }
        hostWaiting := [], hostClaimAge := none
        lanes :=
          let fresh (l : LaneId) : Lane := { Lane.reset with dividerStart := s.now, lastEdge := (s.lane l).lastEdge }
          { l0 := fresh .l0, l1 := fresh .l1, l2 := fresh .l2, l3 := fresh .l3 }
        groups := { g1 := Group.reset, g2 := Group.reset }
        aliases := Vector.replicate 64 { row := none, generation := 0 }
        notices := { entries := [{ seq := 0, notice := .start .request s.link.rate, sent := false }],
                     nextSeq := 1, lost := 0 }
        link := { s.heard.link with
          table := [], crcErrors := 0, framingErrors := 0, oversizeErrors := 0, noRoom := 0 }
        tx := { s.tx with replies := s.tx.replies ++
          (s.link.table.map fun e =>
            { kind := .answer, tag := e.tag, code := e.code, status := .aborted, fields := .none }) ++
          [{ kind := .answer, tag := tag, code := 0x72, status := .ok, fields := .none }] } })

/-- DEVICE RESET with an operation in flight waits: the operation runs on, its host request and the reset's own stay open, and
every other open request is answered ABORTED in arrival order. Claims are withdrawn, every lane, group, alias, the notice
queue and the four link counters are at their defaults, and every divider restarts. A lane with a slot LOADING, DISCARDING or
COMMITTING, whose operation is in flight, stays RESETTING, and every other lane is IDLE at once. Its end, at that operation's
completion, hands its OK over, and START with cause REQUEST joins; with no device reset in progress there is none to end (R43,
R64, R152, R153, R154). The moment of each lane's last LCK edge stays (the model's reading, log entry 35). -/
def Obligations.DeviceResetWaitsForThePort : Prop :=
  ∀ (tag : Byte) (s : State),
    (∀ f, s.Admits tag [] → (s.link.table.map fun e => e.tag).Nodup → s.port.inFlight = some f →
      let holds (x : Slot) : Bool := match x with
        | .loading _ => true
        | .discarding => true
        | .committing _ _ _ => true
        | _ => false
      let left (x : Slot) : Slot := match x with
        | .loading _ => .discarding
        | .discarding => .discarding
        | .committing _ words range => .committing none words range
        | _ => .empty
      let waiting (l : LaneId) : Lane :=
        { s.lane l with
          config := LaneConfig.default, state := .resetting
          slotA := left (s.lane l).slotA, slotB := left (s.lane l).slotB
          queue := [], stopPending := false, awaitingFirstBeat := false
          pins := { ld := some 0, lqv := some false, lmk := false }, dividerStart := s.now }
      let reset (l : LaneId) : Lane :=
        if holds (s.lane l).slotA || holds (s.lane l).slotB then waiting l
        else { Lane.reset with dividerStart := s.now, lastEdge := (s.lane l).lastEdge }
      let stays (e : Entry) : Bool := match f.op with
        | .host op _ => decide (e.tag = op.tag)
        | _ => false
      exec (.deviceReset tag []) s = .next (State.transmit
        { s.heard with
          port := { inFlight := some f, laneGrants := 0 }
          hostWaiting := [], hostClaimAge := none
          lanes := { l0 := reset .l0, l1 := reset .l1, l2 := reset .l2, l3 := reset .l3 }
          groups := { g1 := Group.reset, g2 := Group.reset }
          aliases := Vector.replicate 64 { row := none, generation := 0 }
          notices := { entries := [], nextSeq := 0, lost := 0 }
          link := { s.heard.link with
            table := s.link.table.filter stays ++ [{ tag := tag, code := 0x72, payload := [], state := .withOwner }]
            crcErrors := 0, framingErrors := 0, oversizeErrors := 0, noRoom := 0, deviceReset := some tag }
          tx := { s.tx with replies := s.tx.replies ++ ((s.link.table.filter fun e => !stays e).map fun e =>
            { kind := .answer, tag := e.tag, code := e.code, status := .aborted, fields := .none }) } })) ∧
    (s.link.deviceReset = none → s.endDeviceReset = s) ∧
    (∀ e, s.link.deviceReset = some tag → s.entryOf tag = some e →
      s.endDeviceReset =
        { s with
          link := { s.link with table := s.link.table.filter fun x => x.tag ≠ tag, deviceReset := none }
          tx := { s.tx with replies := s.tx.replies ++
            [{ kind := .answer, tag := tag, code := e.code, status := .ok, fields := .none }] }
          notices := s.notices.join (.start .request s.link.rate) })

/-- The receiver keeps the bytes of a frame and their CRC from the kind through the last payload byte, awaits the two CRC
bytes, and counts the 32 bit times from the last stop bit (R141, R142, R157). -/
def Obligations.ReceiverKeepsTheFrame : Prop :=
  ∀ (s : State) (kind tag code : Byte) (payload : List Byte),
    s.link.receiver.state = .hunting → payload.length ≤ 528 →
    let body := [kind, tag, code] ++ fieldBytes payload.length ++ payload
    (0xC3 :: body).foldl State.goodCharacter s =
      { s with link := { s.link with receiver :=
        { state := .check, remaining := 2, crc := crcOf body, bytes := body, checkLow := 0, lineBlocked := false,
          lastStop := s.now } } }

/-- The characters of a frame: C3h begins one in HUNTING and any other byte is dropped there; the second CRC byte of a
request with the right CRC is that request's command, and with a wrong one it is a CRC discard. A character fault in HUNTING
is dropped and blocks the line; inside a frame it is a FRAMING discard. A frame with the right CRC and kind NOTICE ACK is that
command when its length is 1 and a FRAMING discard otherwise, and so is a frame of any other kind; a length field above 528 is
an OVERSIZE discard at its second byte. Every character with its stop bit high goes to the receiver's frame state, whose steps
`ReceiverKeepsTheFrame` gives. A character whose start bit comes more than 32 bit times after the stop bit before it, inside a
frame, is received in HUNTING: the idle expiry has made a FRAMING discard of the frame. A blocked receiver takes no character
whose start bit came before HRX had been high for one bit time. HRX shows a start bit, the byte from its least significant bit,
and the stop bit (R139 to R143; in one step, log entries 10, 37; log entry 26). -/
def Obligations.CharactersMakeTheRequest : Prop :=
  ∀ (s : State) (highNs : Nat), s.resetn = true →
    let inTime := highNs ≤ 32 * s.link.rate.bitNs
    let expired : State :=
      { s with
        event := s.event + 1
        notices := if s.notices.holdsLinkError = true ∨ s.link.deviceReset ≠ none then s.notices
          else s.notices.join (.linkError .framing)
        link := { s.link with framingErrors := satInc s.link.framingErrors, receiver := Receiver.hunting } }
    let begun : Receiver :=
      { state := .header, remaining := 5, crc := 0xFFFF, bytes := [], checkLow := 0, lineBlocked := false,
        lastStop := s.now }
    (∀ b stop, CharacterLine.levels ⟨stop, highNs⟩ b =
      [false, b.getLsbD 0, b.getLsbD 1, b.getLsbD 2, b.getLsbD 3, b.getLsbD 4, b.getLsbD 5, b.getLsbD 6, b.getLsbD 7,
        stop]) ∧
    (s.link.receiver.lineBlocked = true → highNs < s.link.rate.bitNs →
      ∀ b stop, exec (.characterReceived b ⟨stop, highNs⟩) s = .next { s with event := s.event + 1 }.transmit) ∧
    (s.link.receiver.lineBlocked = false ∨ s.link.rate.bitNs ≤ highNs →
      (s.link.receiver.state = .hunting →
        exec (.characterReceived 0xC3 ⟨true, highNs⟩) s = .next
          { s with event := s.event + 1, link := { s.link with receiver := begun } }.transmit ∧
        (∀ b, b ≠ 0xC3 → exec (.characterReceived b ⟨true, highNs⟩) s = .next
          { s with event := s.event + 1, link := { s.link with receiver :=
            { s.link.receiver with lineBlocked := false } } }.transmit) ∧
        (∀ b, exec (.characterReceived b ⟨false, highNs⟩) s = .next
          { s with event := s.event + 1, link := { s.link with receiver :=
            { s.link.receiver with lineBlocked := true } } }.transmit)) ∧
      (s.link.receiver.state ≠ .hunting → ¬ inTime →
        exec (.characterReceived 0xC3 ⟨true, highNs⟩) s = .next
          { expired with link := { expired.link with receiver := begun } }.transmit ∧
        (∀ b, b ≠ 0xC3 → exec (.characterReceived b ⟨true, highNs⟩) s = .next expired.transmit) ∧
        (∀ b, exec (.characterReceived b ⟨false, highNs⟩) s = .next
          { expired with link := { expired.link with receiver :=
            { Receiver.hunting with lineBlocked := true } } }.transmit)) ∧
      (s.link.receiver.state ≠ .hunting → inTime →
        ∀ b, exec (.characterReceived b ⟨false, highNs⟩) s = exec (.frameDiscard ⟨.characterFault, highNs⟩) s) ∧
      (∀ (b tag code : Byte) (payload : List Byte),
        inTime → s.link.receiver.state = .check → s.link.receiver.remaining = 1 →
        s.link.receiver.bytes = [0x01, tag, code] ++ fieldBytes payload.length ++ payload →
        (s.link.receiver.checkLow.toNat + 256 * b.toNat = s.link.receiver.crc.toNat →
          exec (.characterReceived b ⟨true, highNs⟩) s = exec (requestOf code tag payload) s) ∧
        (s.link.receiver.checkLow.toNat + 256 * b.toNat ≠ s.link.receiver.crc.toNat →
          exec (.characterReceived b ⟨true, highNs⟩) s = exec (.frameDiscard ⟨.crcMismatch, highNs⟩) s)) ∧
      (∀ (b kind tag code : Byte) (payload : List Byte),
        inTime → s.link.receiver.state = .check → s.link.receiver.remaining = 1 →
        s.link.receiver.bytes = [kind, tag, code] ++ fieldBytes payload.length ++ payload →
        s.link.receiver.checkLow.toNat + 256 * b.toNat = s.link.receiver.crc.toNat →
        (∀ seq, kind = 0x02 → payload = [seq] →
          exec (.characterReceived b ⟨true, highNs⟩) s = exec (.noticeAck seq) s) ∧
        (kind = 0x02 → payload.length ≠ 1 →
          exec (.characterReceived b ⟨true, highNs⟩) s = exec (.frameDiscard ⟨.ackLength, highNs⟩) s) ∧
        (kind ≠ 0x01 → kind ≠ 0x02 →
          exec (.characterReceived b ⟨true, highNs⟩) s = exec (.frameDiscard ⟨.wrongKind, highNs⟩) s)) ∧
      (∀ b kind tag code lo : Byte,
        inTime → s.link.receiver.state = .header → s.link.receiver.remaining = 1 →
        s.link.receiver.bytes = [kind, tag, code, lo] → 528 < lo.toNat + 256 * b.toNat →
        exec (.characterReceived b ⟨true, highNs⟩) s = exec (.frameDiscard ⟨.oversize, highNs⟩) s) ∧
      (s.link.receiver.state = .hunting ∨ inTime → ∀ b, exec (.characterReceived b ⟨true, highNs⟩) s =
        .next (State.goodCharacter { s with event := s.event + 1 } b).transmit))

/-- The transmitter's choice of R149 when FREE, nothing while SENDING, and the end of a sent frame, which frees it for its
next frame in the same event (R132, R148, R149). The frame it takes, byte by byte: Table 10-1 with its CRC, the status in a
reply's kind byte and its fields for OK alone, and a notice's number, code and body (R156, R157, R159, Tables 10-5 to 10-9).
HTX carries its characters back to back, each a start bit, eight data bits from the least significant, and a stop bit; it is
high while RESETN is low and while no frame is being sent (R139). -/
def Obligations.TransmitterChoosesByReplyShare : Prop :=
  (∀ s : State,
    (s.tx.sending ≠ none → s.transmit = s) ∧
    (s.tx.sending = none → s.tx.replies = [] → (∀ e ∈ s.notices.entries, e.sent = true) → s.transmit = s) ∧
    (∀ r rest, s.tx.sending = none → s.tx.replies = r :: rest →
      ((∀ e ∈ s.notices.entries, e.sent = true) ∨ s.tx.replyCount < 4) →
      s.transmit = { s with tx :=
        { replies := rest, sending := some { frame := r.frame, startedAt := s.now }
          replyCount := if s.notices.entries.all (fun e => e.sent) then 0 else s.tx.replyCount + 1 } }) ∧
    (∀ sent e unsent, s.tx.sending = none → s.notices.entries = sent ++ e :: unsent →
      (∀ x ∈ sent, x.sent = true) → e.sent = false → (s.tx.replies = [] ∨ 4 ≤ s.tx.replyCount) →
      s.transmit = { s with
        notices := { s.notices with entries := sent ++ { e with sent := true } :: unsent }
        tx := { s.tx with sending := some { frame := e.frame s.link, startedAt := s.now }, replyCount := 0 } }) ∧
    (s.resetn = true →
      exec .transmitterFrameEnd s =
        .next (State.transmit { s with event := s.event + 1, tx := { s.tx with sending := none } }))) ∧
  (∀ s : State,
    (s.resetn = false ∨ s.tx.sending = none → s.htx = true) ∧
    (∀ f, s.resetn = true → s.tx.sending = some f →
      (f.startedAt + f.frame.length * 10 * s.link.rate.bitNs ≤ s.now → s.htx = true) ∧
      (∀ (i j : Nat) (b : Byte), f.frame[i]? = some b → j < 10 →
        f.startedAt + (i * 10 + j) * s.link.rate.bitNs ≤ s.now →
        s.now < f.startedAt + (i * 10 + j + 1) * s.link.rate.bitNs →
        s.htx = if j = 0 then false else if j = 9 then true else b.getLsbD (j - 1)))) ∧
  (let two (n : Nat) : List Byte := [BitVec.ofNat 8 n, BitVec.ofNat 8 (n / 256)]
  let one (n : Nat) : List Byte := [BitVec.ofNat 8 n]
  let shift (crc : Word16) (bit : Bool) : Word16 :=
    if (crc.getLsbD 15 ^^ bit) = true then (crc <<< 1) ^^^ 0x1021 else crc <<< 1
  let crc (bytes : List Byte) : Word16 := bytes.foldl
    (fun r b => [7, 6, 5, 4, 3, 2, 1, 0].foldl (fun r i => shift r (b.getLsbD i)) r) 0xFFFF
  let frame (kind tag code : Byte) (payload : List Byte) : List Byte :=
    let body := [kind, tag, code] ++ two payload.length ++ payload
    [0xC3] ++ body ++ two (crc body).toNat
  let block (row : Option Row) (generation : Option Byte) : List Byte :=
    match row, generation with
    | some r, some g => [0x03] ++ two r.val ++ [g]
    | some r, none => [0x01] ++ two r.val ++ [0]
    | none, some g => [0x02, 0, 0, g]
    | none, none => [0, 0, 0, 0]
  let lane (l : LaneId) : Byte := match l with
    | .l0 => 0
    | .l1 => 1
    | .l2 => 2
    | .l3 => 3
  let state (st : LaneState) : Byte := match st with
    | .idle => 0
    | .priming => 1
    | .ready => 2
    | .running => 3
    | .stalled _ => 4
    | .ending _ _ => 5
    | .halted _ => 6
    | .resetting => 7
  let cause (x : Option StallCause) : Byte := match x with
    | none => 0
    | some .underrun => 1
    | some .overrun => 2
    | some .dry => 3
  let reason (x : Option HaltReason) : Byte := match x with
    | none => 0
    | some .ended => 1
    | some .request => 2
    | some .underrun => 3
    | some .overrun => 4
    | some .group => 5
  let active (x : Option SlotName) : Byte := match x with
    | none => 0
    | some .a => 1
    | some .b => 2
  let slot (x : SlotReport) : List Byte :=
    [match x.status with
      | .empty => 0
      | .staged => 1
      | .loading => 2
      | .loaded => 3
      | .active => 4
      | .discarding => 5
      | .assigned => 6
      | .commitWait => 7
      | .committing => 8, x.cue.getD 0]
  let repetitions (x : Option Reps) : Byte := match x with
    | none => 0
    | some (.count n) => BitVec.ofNat 8 n
    | some .continuous => 0xFF
  let outcome (o : CueOutcome) : Byte := match o with
    | .played => 1
    | .captured => 2
    | .cut => 3
    | .partialSpan => 4
    | .late => 5
    | .unbound => 6
    | .flushed => 7
  let group (g : GroupName) : Byte := match g with
    | .g1 => 1
    | .g2 => 2
  let groupState (st : GroupState) : Byte := match st with
    | .opened => 0
    | .armed => 1
    | .fired => 2
  let yes (b : Bool) : Byte := if b then 1 else 0
  let fields (x : ReplyFields) : List Byte := match x with
    | .none => []
    | .flushed n => one n
    | .cueList r => [state r.state, active r.active] ++ slot r.slotA ++ slot r.slotB ++ one r.waiting.length ++ r.waiting
    | .laneStatus r =>
      [state r.state, cause r.stallCause, reason r.haltReason, active r.active, r.pointer.getD 0, repetitions r.repsLeft] ++
        slot r.slotA ++ slot r.slotB ++ one r.waiting ++ two r.stallBeats.toNat ++ [r.lateCues] ++ two r.droppedWords.toNat
    | .rowUsed r => block (some r.row) r.generation
    | .rowWords r start words => block (some r.row) r.generation ++ two start ++ two words.length ++ words
    | .aliasEntry n e => match e.row with
      | some r => one n.val ++ [1] ++ two r.val ++ [e.generation]
      | none => one n.val ++ [0, 0, 0] ++ [e.generation]
    | .groupStatus r =>
      [groupState r.group.state, match r.group.trigger with
        | .request => 0
        | .pinRise => 1
        | .pinFall => 2, yes r.group.haltTogether] ++ one r.members.length ++
        r.members.flatMap fun m => [lane m.1, state m.2]
    | .echo bytes => bytes
    | .deviceStatus r =>
      [match r.array with
        | .initialising => 0
        | .ready => 1, r.crcErrors, r.framingErrors, r.oversizeErrors, r.noRoom] ++ one r.noticeDepth ++ two r.lost.toNat ++
        one r.openRequests ++ one r.hostDepth ++ [state r.lanes.l0, state r.lanes.l1, state r.lanes.l2, state r.lanes.l3]
  let status (st : Status) : Byte := match st with
    | .ok => 0x80
    | .noRoom => 0x81
    | .tagInUse => 0x82
    | .unknownRequest => 0x83
    | .malformed => 0x84
    | .badField => 0x85
    | .wrongState => 0x86
    | .queueFull => 0x87
    | .duplicateCue => 0x88
    | .busy => 0x89
    | .notReady => 0x8A
    | .unbound => 0x8B
    | .aborted => 0x8C
  (∀ r : Reply, r.frame = frame (status r.status) r.tag r.code (if r.status = .ok then fields r.fields else [])) ∧
  (∀ (k : Link) (e : NoticeEntry), e.frame k =
    match e.notice with
    | .start c rate => frame 0x03 e.seq 0x01
        [match c with
          | .pin => 0
          | .request => 1, match rate with
          | .half => 0
          | .one => 1
          | .two => 2
          | .four => 3]
    | .arrayReady => frame 0x03 e.seq 0x02 []
    | .cueStart l c row generation => frame 0x03 e.seq 0x03 ([lane l, c] ++ block row generation)
    | .cueEnd l c o stall dropped =>
      frame 0x03 e.seq 0x04 ([lane l, c, outcome o] ++ two stall.toNat ++ two dropped.toNat)
    | .laneStall l c x => frame 0x03 e.seq 0x05 [lane l, c, cause (some x)]
    | .laneHalted l x lastCue returned => frame 0x03 e.seq 0x06
        ([lane l, reason (some x), yes lastCue.isSome, lastCue.getD 0] ++ one returned.length ++ returned)
    | .groupFired g members => frame 0x03 e.seq 0x07 ([group g] ++ one members.length ++ members.map lane)
    | .triggerIgnored g st => frame 0x03 e.seq 0x08 [group g, groupState st]
    | .linkError kind => frame 0x03 e.seq 0x09
        [match kind with
          | .crc => 1
          | .framing => 2
          | .oversize => 3, k.crcErrors, k.framingErrors, k.oversizeErrors]
    | .noticesLost n => frame 0x03 e.seq 0x0A (two n.toNat)) ∧
  crc [0x31, 0x32, 0x33, 0x34, 0x35, 0x36, 0x37, 0x38, 0x39] = 0x29B1)

/-! ## Hard reset -/

/-- While RESETN is low nothing but its release reaches the part. HARD_RESET puts everything at its reset value and abandons
the work in progress; time, the event number and the waiting commands are the model's own, and the array's words stay
unreadable until the next clear (R155, R160, R22, R66, R104, R118, R137). The model's choice: what is kept (log entries 8, 15,
21), and the reset values that the spec does not give: link rate 0.5 Mbit/s, TRIG level low, receiver HUNTING with its
bookkeeping, divider starts (log entry 14), and no LCK edge taken (log entry 35). -/
def Obligations.HardResetHoldsResetValues : Prop :=
  ∀ s : State,
    exec .hardReset s = .next
      { State.reset with array := s.array, event := s.event + 1, now := s.now, pending := s.pending } ∧
    ∀ c : Instr, s.resetn = false → (∀ a b t, c ≠ .resetnRelease a b t) → c ≠ .hardReset → exec c s = .next s

/-- The release of RESETN fixes rate and TRIG level, restarts the dividers, grants the clear, and queues START with cause
PIN, which the FREE transmitter takes at once (R65, R122, R137, R139, R155, R160). -/
def Obligations.ReleaseStartsTheClear : Prop :=
  ∀ (rate1 rate0 trig : Bool) (s : State), s.resetn = false → s.link.deviceReset = none →
    let rate : LinkRate := if rate1 then (if rate0 then .four else .two) else (if rate0 then .one else .half)
    exec (.resetnRelease rate1 rate0 trig) s = .next
      { s with
        event := s.event + 1, resetn := true, trigLevel := trig, arrayState := .initialising
        link := { s.link with rate := rate }
        port := { inFlight := some { op := .clear, grantedAt := s.now }, laneGrants := 0 }
        lanes :=
          { l0 := { s.lane .l0 with dividerStart := s.now }, l1 := { s.lane .l1 with dividerStart := s.now },
            l2 := { s.lane .l2 with dividerStart := s.now }, l3 := { s.lane .l3 with dividerStart := s.now } }
        notices := s.notices.join (.start .pin rate) }.transmit

/-! ## Invariants -/

/-- The part in hard reset meets every invariant. -/
def Obligations.ResetIsSafe : Prop := State.reset.Safe

/-- Every step keeps the pattern array in canonical form and every host operation inside one row (R103, R108). -/
def Obligations.StepKeepsArraySafe : Prop :=
  ∀ s t : State, s.ArraySafe → step s = .next t → t.ArraySafe

/-- Every step keeps the notice queue at 32 entries or fewer whose numbers run consecutively up to the next one (R131), and
leaves no LANE STALL owed: each is queued in its own event (R77; log entry 34). -/
def Obligations.StepKeepsNoticeRun : Prop :=
  ∀ s t : State, step s = .next t →
    (s.notices.wf = true → t.notices.wf = true) ∧ (s.stalls = [] → t.stalls = [])

/-- Every step keeps the tags of open requests distinct, eight places, four refusal replies and a reply count of 4 at most
(R144, R148, R149). -/
def Obligations.StepKeepsLinkLimits : Prop :=
  ∀ s t : State, s.LinkSafe → step s = .next t → t.LinkSafe

/-- Every step keeps the host array queue at four operations, the lane grant count at 3, and the count 0 without a HOST
claim; a HOST claim has an age, and without one there is none (R147, R55, R46). -/
def Obligations.StepKeepsHostShare : Prop :=
  ∀ s t : State, s.HostSafe → step s = .next t → t.HostSafe

/-- Every step keeps at most 16 cues on each lane with distinct ids, and on a capture lane none with a repeat other than 1
(R6, R7, R12, R14). -/
def Obligations.StepKeepsHeldCues : Prop :=
  ∀ s t : State, (∀ l, (s.lane l).CuesSafe) → step s = .next t → ∀ l, (t.lane l).CuesSafe

/-- Every step keeps at most one ACTIVE slot on each lane, and none outside RUNNING (R36, R89). -/
def Obligations.StepKeepsOneActiveSlot : Prop :=
  ∀ s t : State, (∀ l, (s.lane l).ActiveSafe) → step s = .next t → ∀ l, (t.lane l).ActiveSafe
end

