-- ==== Sys2Proof/Laws/State.lean ====
section
/-! SUPPORT. One lemma per field per update of the state, of a lane and of its slots, so that no later proof unfolds a record
update. -/

namespace Sys2Proof.Machine

open Sys2Proof

/-! ## Lanes and groups by name -/

@[simp] theorem PerLane.get_set_same {α : Type} (p : PerLane α) (l : LaneId) (x : α) : (p.set l x).get l = x := by
  cases l <;> rfl

@[simp] theorem PerLane.get_set_other {α : Type} (p : PerLane α) (l m : LaneId) (x : α) (h : m ≠ l) :
    (p.set l x).get m = p.get m := by
  cases l <;> cases m <;> first | rfl | exact absurd rfl h

@[simp] theorem PerLane.set_get {α : Type} (p : PerLane α) (l : LaneId) : p.set l (p.get l) = p := by
  cases l <;> rfl

@[simp] theorem PerLane.set_set {α : Type} (p : PerLane α) (l : LaneId) (x y : α) :
    (p.set l x).set l y = p.set l y := by
  cases l <;> rfl

@[simp] theorem PerLane.get_map {α β : Type} (f : α → β) (p : PerLane α) (l : LaneId) :
    (p.map f).get l = f (p.get l) := by
  cases l <;> rfl

@[ext] theorem PerLane.ext_get {α : Type} {p q : PerLane α} (h : ∀ l, p.get l = q.get l) : p = q := by
  have h0 := h .l0
  have h1 := h .l1
  have h2 := h .l2
  have h3 := h .l3
  cases p
  cases q
  simp_all [PerLane.get]

@[simp] theorem PerGroup.get_set_same {α : Type} (p : PerGroup α) (g : GroupName) (x : α) :
    (p.set g x).get g = x := by
  cases g <;> rfl

@[simp] theorem PerGroup.get_set_other {α : Type} (p : PerGroup α) (g h : GroupName) (x : α) (ne : h ≠ g) :
    (p.set g x).get h = p.get h := by
  cases g <;> cases h <;> first | rfl | exact absurd rfl ne

@[simp] theorem PerGroup.set_get {α : Type} (p : PerGroup α) (g : GroupName) : p.set g (p.get g) = p := by
  cases g <;> rfl

@[simp] theorem PerGroup.set_set {α : Type} (p : PerGroup α) (g : GroupName) (x y : α) :
    (p.set g x).set g y = p.set g y := by
  cases g <;> rfl

@[ext] theorem PerGroup.ext_get {α : Type} {p q : PerGroup α} (h : ∀ g, p.get g = q.get g) : p = q := by
  have h1 := h .g1
  have h2 := h .g2
  cases p
  cases q
  simp_all [PerGroup.get]

@[simp] theorem State.lane_setLane_same (s : State) (l : LaneId) (x : Lane) : (s.setLane l x).lane l = x :=
  PerLane.get_set_same s.lanes l x

@[simp] theorem State.lane_setLane_other (s : State) (l m : LaneId) (x : Lane) (h : m ≠ l) :
    (s.setLane l x).lane m = s.lane m :=
  PerLane.get_set_other s.lanes l m x h

@[simp] theorem State.setLane_setLane (s : State) (l : LaneId) (x y : Lane) :
    (s.setLane l x).setLane l y = s.setLane l y := by
  simp [State.setLane]

@[simp] theorem State.setLane_lane (s : State) (l : LaneId) : s.setLane l (s.lane l) = s := by
  simp [State.setLane, State.lane]

@[simp] theorem State.group_setGroup_same (s : State) (g : GroupName) (x : Group) : (s.setGroup g x).group g = x :=
  PerGroup.get_set_same s.groups g x

@[simp] theorem State.group_setGroup_other (s : State) (g h : GroupName) (x : Group) (ne : h ≠ g) :
    (s.setGroup g x).group h = s.group h :=
  PerGroup.get_set_other s.groups g h x ne

@[simp] theorem State.aliasAt_setAlias_same (s : State) (n : AliasNo) (e : AliasEntry) :
    (s.setAlias n e).aliasAt n = e := by
  simp [State.setAlias, State.aliasAt]

@[simp] theorem State.aliasAt_setAlias_other (s : State) (n m : AliasNo) (e : AliasEntry) (h : m ≠ n) :
    (s.setAlias n e).aliasAt m = s.aliasAt m := by
  have hv : n.val ≠ m.val := fun e => h (Fin.ext e.symm)
  simp [State.setAlias, State.aliasAt, hv]

theorem State.mapLane_eq (s : State) (l : LaneId) (f : Lane → Lane) : s.mapLane l f = s.setLane l (f (s.lane l)) := rfl

/-! ## The fields an update leaves -/

@[simp] theorem State.setLane_resetn (s : State) (l : LaneId) (x : Lane) : (s.setLane l x).resetn = s.resetn := rfl

@[simp] theorem State.setLane_trigLevel (s : State) (l : LaneId) (x : Lane) : (s.setLane l x).trigLevel = s.trigLevel := rfl

@[simp] theorem State.setLane_arrayState (s : State) (l : LaneId) (x : Lane) : (s.setLane l x).arrayState = s.arrayState := rfl

@[simp] theorem State.setLane_array (s : State) (l : LaneId) (x : Lane) : (s.setLane l x).array = s.array := rfl

@[simp] theorem State.setLane_aliases (s : State) (l : LaneId) (x : Lane) : (s.setLane l x).aliases = s.aliases := rfl

@[simp] theorem State.setLane_port (s : State) (l : LaneId) (x : Lane) : (s.setLane l x).port = s.port := rfl

@[simp] theorem State.setLane_hostWaiting (s : State) (l : LaneId) (x : Lane) : (s.setLane l x).hostWaiting = s.hostWaiting := rfl

@[simp] theorem State.setLane_hostClaimAge (s : State) (l : LaneId) (x : Lane) : (s.setLane l x).hostClaimAge = s.hostClaimAge := rfl

@[simp] theorem State.setLane_groups (s : State) (l : LaneId) (x : Lane) : (s.setLane l x).groups = s.groups := rfl

@[simp] theorem State.setLane_notices (s : State) (l : LaneId) (x : Lane) : (s.setLane l x).notices = s.notices := rfl

@[simp] theorem State.setLane_link (s : State) (l : LaneId) (x : Lane) : (s.setLane l x).link = s.link := rfl

@[simp] theorem State.setLane_tx (s : State) (l : LaneId) (x : Lane) : (s.setLane l x).tx = s.tx := rfl

@[simp] theorem State.setLane_event (s : State) (l : LaneId) (x : Lane) : (s.setLane l x).event = s.event := rfl

@[simp] theorem State.setLane_now (s : State) (l : LaneId) (x : Lane) : (s.setLane l x).now = s.now := rfl

@[simp] theorem State.setLane_stalls (s : State) (l : LaneId) (x : Lane) : (s.setLane l x).stalls = s.stalls := rfl

@[simp] theorem State.setLane_pending (s : State) (l : LaneId) (x : Lane) : (s.setLane l x).pending = s.pending := rfl

@[simp] theorem State.setGroup_resetn (s : State) (g : GroupName) (x : Group) : (s.setGroup g x).resetn = s.resetn := rfl

@[simp] theorem State.setGroup_trigLevel (s : State) (g : GroupName) (x : Group) : (s.setGroup g x).trigLevel = s.trigLevel := rfl

@[simp] theorem State.setGroup_arrayState (s : State) (g : GroupName) (x : Group) : (s.setGroup g x).arrayState = s.arrayState := rfl

@[simp] theorem State.setGroup_array (s : State) (g : GroupName) (x : Group) : (s.setGroup g x).array = s.array := rfl

@[simp] theorem State.setGroup_aliases (s : State) (g : GroupName) (x : Group) : (s.setGroup g x).aliases = s.aliases := rfl

@[simp] theorem State.setGroup_port (s : State) (g : GroupName) (x : Group) : (s.setGroup g x).port = s.port := rfl

@[simp] theorem State.setGroup_hostWaiting (s : State) (g : GroupName) (x : Group) : (s.setGroup g x).hostWaiting = s.hostWaiting := rfl

@[simp] theorem State.setGroup_hostClaimAge (s : State) (g : GroupName) (x : Group) : (s.setGroup g x).hostClaimAge = s.hostClaimAge := rfl

@[simp] theorem State.setGroup_lanes (s : State) (g : GroupName) (x : Group) : (s.setGroup g x).lanes = s.lanes := rfl

@[simp] theorem State.setGroup_notices (s : State) (g : GroupName) (x : Group) : (s.setGroup g x).notices = s.notices := rfl

@[simp] theorem State.setGroup_link (s : State) (g : GroupName) (x : Group) : (s.setGroup g x).link = s.link := rfl

@[simp] theorem State.setGroup_tx (s : State) (g : GroupName) (x : Group) : (s.setGroup g x).tx = s.tx := rfl

@[simp] theorem State.setGroup_event (s : State) (g : GroupName) (x : Group) : (s.setGroup g x).event = s.event := rfl

@[simp] theorem State.setGroup_now (s : State) (g : GroupName) (x : Group) : (s.setGroup g x).now = s.now := rfl

@[simp] theorem State.setGroup_stalls (s : State) (g : GroupName) (x : Group) : (s.setGroup g x).stalls = s.stalls := rfl

@[simp] theorem State.setGroup_pending (s : State) (g : GroupName) (x : Group) : (s.setGroup g x).pending = s.pending := rfl

@[simp] theorem State.setAlias_resetn (s : State) (n : AliasNo) (e : AliasEntry) : (s.setAlias n e).resetn = s.resetn := rfl

@[simp] theorem State.setAlias_trigLevel (s : State) (n : AliasNo) (e : AliasEntry) : (s.setAlias n e).trigLevel = s.trigLevel := rfl

@[simp] theorem State.setAlias_arrayState (s : State) (n : AliasNo) (e : AliasEntry) : (s.setAlias n e).arrayState = s.arrayState := rfl

@[simp] theorem State.setAlias_array (s : State) (n : AliasNo) (e : AliasEntry) : (s.setAlias n e).array = s.array := rfl

@[simp] theorem State.setAlias_port (s : State) (n : AliasNo) (e : AliasEntry) : (s.setAlias n e).port = s.port := rfl

@[simp] theorem State.setAlias_hostWaiting (s : State) (n : AliasNo) (e : AliasEntry) : (s.setAlias n e).hostWaiting = s.hostWaiting := rfl

@[simp] theorem State.setAlias_hostClaimAge (s : State) (n : AliasNo) (e : AliasEntry) : (s.setAlias n e).hostClaimAge = s.hostClaimAge := rfl

@[simp] theorem State.setAlias_lanes (s : State) (n : AliasNo) (e : AliasEntry) : (s.setAlias n e).lanes = s.lanes := rfl

@[simp] theorem State.setAlias_groups (s : State) (n : AliasNo) (e : AliasEntry) : (s.setAlias n e).groups = s.groups := rfl

@[simp] theorem State.setAlias_notices (s : State) (n : AliasNo) (e : AliasEntry) : (s.setAlias n e).notices = s.notices := rfl

@[simp] theorem State.setAlias_link (s : State) (n : AliasNo) (e : AliasEntry) : (s.setAlias n e).link = s.link := rfl

@[simp] theorem State.setAlias_tx (s : State) (n : AliasNo) (e : AliasEntry) : (s.setAlias n e).tx = s.tx := rfl

@[simp] theorem State.setAlias_event (s : State) (n : AliasNo) (e : AliasEntry) : (s.setAlias n e).event = s.event := rfl

@[simp] theorem State.setAlias_now (s : State) (n : AliasNo) (e : AliasEntry) : (s.setAlias n e).now = s.now := rfl

@[simp] theorem State.setAlias_stalls (s : State) (n : AliasNo) (e : AliasEntry) : (s.setAlias n e).stalls = s.stalls := rfl

@[simp] theorem State.setAlias_pending (s : State) (n : AliasNo) (e : AliasEntry) : (s.setAlias n e).pending = s.pending := rfl

@[simp] theorem State.addReply_resetn (s : State) (r : Reply) : (s.addReply r).resetn = s.resetn := rfl

@[simp] theorem State.addReply_trigLevel (s : State) (r : Reply) : (s.addReply r).trigLevel = s.trigLevel := rfl

@[simp] theorem State.addReply_arrayState (s : State) (r : Reply) : (s.addReply r).arrayState = s.arrayState := rfl

@[simp] theorem State.addReply_array (s : State) (r : Reply) : (s.addReply r).array = s.array := rfl

@[simp] theorem State.addReply_aliases (s : State) (r : Reply) : (s.addReply r).aliases = s.aliases := rfl

@[simp] theorem State.addReply_port (s : State) (r : Reply) : (s.addReply r).port = s.port := rfl

@[simp] theorem State.addReply_hostWaiting (s : State) (r : Reply) : (s.addReply r).hostWaiting = s.hostWaiting := rfl

@[simp] theorem State.addReply_hostClaimAge (s : State) (r : Reply) : (s.addReply r).hostClaimAge = s.hostClaimAge := rfl

@[simp] theorem State.addReply_lanes (s : State) (r : Reply) : (s.addReply r).lanes = s.lanes := rfl

@[simp] theorem State.addReply_groups (s : State) (r : Reply) : (s.addReply r).groups = s.groups := rfl

@[simp] theorem State.addReply_notices (s : State) (r : Reply) : (s.addReply r).notices = s.notices := rfl

@[simp] theorem State.addReply_link (s : State) (r : Reply) : (s.addReply r).link = s.link := rfl

@[simp] theorem State.addReply_event (s : State) (r : Reply) : (s.addReply r).event = s.event := rfl

@[simp] theorem State.addReply_now (s : State) (r : Reply) : (s.addReply r).now = s.now := rfl

@[simp] theorem State.addReply_stalls (s : State) (r : Reply) : (s.addReply r).stalls = s.stalls := rfl

@[simp] theorem State.addReply_pending (s : State) (r : Reply) : (s.addReply r).pending = s.pending := rfl

@[simp] theorem State.countNoRoom_resetn (s : State) : (s.countNoRoom).resetn = s.resetn := rfl

@[simp] theorem State.countNoRoom_trigLevel (s : State) : (s.countNoRoom).trigLevel = s.trigLevel := rfl

@[simp] theorem State.countNoRoom_arrayState (s : State) : (s.countNoRoom).arrayState = s.arrayState := rfl

@[simp] theorem State.countNoRoom_array (s : State) : (s.countNoRoom).array = s.array := rfl

@[simp] theorem State.countNoRoom_aliases (s : State) : (s.countNoRoom).aliases = s.aliases := rfl

@[simp] theorem State.countNoRoom_port (s : State) : (s.countNoRoom).port = s.port := rfl

@[simp] theorem State.countNoRoom_hostWaiting (s : State) : (s.countNoRoom).hostWaiting = s.hostWaiting := rfl

@[simp] theorem State.countNoRoom_hostClaimAge (s : State) : (s.countNoRoom).hostClaimAge = s.hostClaimAge := rfl

@[simp] theorem State.countNoRoom_lanes (s : State) : (s.countNoRoom).lanes = s.lanes := rfl

@[simp] theorem State.countNoRoom_groups (s : State) : (s.countNoRoom).groups = s.groups := rfl

@[simp] theorem State.countNoRoom_notices (s : State) : (s.countNoRoom).notices = s.notices := rfl

@[simp] theorem State.countNoRoom_tx (s : State) : (s.countNoRoom).tx = s.tx := rfl

@[simp] theorem State.countNoRoom_event (s : State) : (s.countNoRoom).event = s.event := rfl

@[simp] theorem State.countNoRoom_now (s : State) : (s.countNoRoom).now = s.now := rfl

@[simp] theorem State.countNoRoom_stalls (s : State) : (s.countNoRoom).stalls = s.stalls := rfl

@[simp] theorem State.countNoRoom_pending (s : State) : (s.countNoRoom).pending = s.pending := rfl

@[simp] theorem State.hunt_resetn (s : State) (b : Bool) : (s.hunt b).resetn = s.resetn := rfl

@[simp] theorem State.hunt_trigLevel (s : State) (b : Bool) : (s.hunt b).trigLevel = s.trigLevel := rfl

@[simp] theorem State.hunt_arrayState (s : State) (b : Bool) : (s.hunt b).arrayState = s.arrayState := rfl

@[simp] theorem State.hunt_array (s : State) (b : Bool) : (s.hunt b).array = s.array := rfl

@[simp] theorem State.hunt_aliases (s : State) (b : Bool) : (s.hunt b).aliases = s.aliases := rfl

@[simp] theorem State.hunt_port (s : State) (b : Bool) : (s.hunt b).port = s.port := rfl

@[simp] theorem State.hunt_hostWaiting (s : State) (b : Bool) : (s.hunt b).hostWaiting = s.hostWaiting := rfl

@[simp] theorem State.hunt_hostClaimAge (s : State) (b : Bool) : (s.hunt b).hostClaimAge = s.hostClaimAge := rfl

@[simp] theorem State.hunt_lanes (s : State) (b : Bool) : (s.hunt b).lanes = s.lanes := rfl

@[simp] theorem State.hunt_groups (s : State) (b : Bool) : (s.hunt b).groups = s.groups := rfl

@[simp] theorem State.hunt_notices (s : State) (b : Bool) : (s.hunt b).notices = s.notices := rfl

@[simp] theorem State.hunt_tx (s : State) (b : Bool) : (s.hunt b).tx = s.tx := rfl

@[simp] theorem State.hunt_event (s : State) (b : Bool) : (s.hunt b).event = s.event := rfl

@[simp] theorem State.hunt_now (s : State) (b : Bool) : (s.hunt b).now = s.now := rfl

@[simp] theorem State.hunt_stalls (s : State) (b : Bool) : (s.hunt b).stalls = s.stalls := rfl

@[simp] theorem State.hunt_pending (s : State) (b : Bool) : (s.hunt b).pending = s.pending := rfl

@[simp] theorem State.setReceiver_resetn (s : State) (r : Receiver) : (s.setReceiver r).resetn = s.resetn := rfl

@[simp] theorem State.setReceiver_trigLevel (s : State) (r : Receiver) : (s.setReceiver r).trigLevel = s.trigLevel := rfl

@[simp] theorem State.setReceiver_arrayState (s : State) (r : Receiver) : (s.setReceiver r).arrayState = s.arrayState := rfl

@[simp] theorem State.setReceiver_array (s : State) (r : Receiver) : (s.setReceiver r).array = s.array := rfl

@[simp] theorem State.setReceiver_aliases (s : State) (r : Receiver) : (s.setReceiver r).aliases = s.aliases := rfl

@[simp] theorem State.setReceiver_port (s : State) (r : Receiver) : (s.setReceiver r).port = s.port := rfl

@[simp] theorem State.setReceiver_hostWaiting (s : State) (r : Receiver) : (s.setReceiver r).hostWaiting = s.hostWaiting := rfl

@[simp] theorem State.setReceiver_hostClaimAge (s : State) (r : Receiver) : (s.setReceiver r).hostClaimAge = s.hostClaimAge := rfl

@[simp] theorem State.setReceiver_lanes (s : State) (r : Receiver) : (s.setReceiver r).lanes = s.lanes := rfl

@[simp] theorem State.setReceiver_groups (s : State) (r : Receiver) : (s.setReceiver r).groups = s.groups := rfl

@[simp] theorem State.setReceiver_notices (s : State) (r : Receiver) : (s.setReceiver r).notices = s.notices := rfl

@[simp] theorem State.setReceiver_tx (s : State) (r : Receiver) : (s.setReceiver r).tx = s.tx := rfl

@[simp] theorem State.setReceiver_event (s : State) (r : Receiver) : (s.setReceiver r).event = s.event := rfl

@[simp] theorem State.setReceiver_now (s : State) (r : Receiver) : (s.setReceiver r).now = s.now := rfl

@[simp] theorem State.setReceiver_stalls (s : State) (r : Receiver) : (s.setReceiver r).stalls = s.stalls := rfl

@[simp] theorem State.setReceiver_pending (s : State) (r : Receiver) : (s.setReceiver r).pending = s.pending := rfl

@[simp] theorem State.handToOwner_resetn (s : State) (tag : Byte) : (s.handToOwner tag).resetn = s.resetn := rfl

@[simp] theorem State.handToOwner_trigLevel (s : State) (tag : Byte) : (s.handToOwner tag).trigLevel = s.trigLevel := rfl

@[simp] theorem State.handToOwner_arrayState (s : State) (tag : Byte) : (s.handToOwner tag).arrayState = s.arrayState := rfl

@[simp] theorem State.handToOwner_array (s : State) (tag : Byte) : (s.handToOwner tag).array = s.array := rfl

@[simp] theorem State.handToOwner_aliases (s : State) (tag : Byte) : (s.handToOwner tag).aliases = s.aliases := rfl

@[simp] theorem State.handToOwner_port (s : State) (tag : Byte) : (s.handToOwner tag).port = s.port := rfl

@[simp] theorem State.handToOwner_hostWaiting (s : State) (tag : Byte) : (s.handToOwner tag).hostWaiting = s.hostWaiting := rfl

@[simp] theorem State.handToOwner_hostClaimAge (s : State) (tag : Byte) : (s.handToOwner tag).hostClaimAge = s.hostClaimAge := rfl

@[simp] theorem State.handToOwner_lanes (s : State) (tag : Byte) : (s.handToOwner tag).lanes = s.lanes := rfl

@[simp] theorem State.handToOwner_groups (s : State) (tag : Byte) : (s.handToOwner tag).groups = s.groups := rfl

@[simp] theorem State.handToOwner_notices (s : State) (tag : Byte) : (s.handToOwner tag).notices = s.notices := rfl

@[simp] theorem State.handToOwner_tx (s : State) (tag : Byte) : (s.handToOwner tag).tx = s.tx := rfl

@[simp] theorem State.handToOwner_event (s : State) (tag : Byte) : (s.handToOwner tag).event = s.event := rfl

@[simp] theorem State.handToOwner_now (s : State) (tag : Byte) : (s.handToOwner tag).now = s.now := rfl

@[simp] theorem State.handToOwner_stalls (s : State) (tag : Byte) : (s.handToOwner tag).stalls = s.stalls := rfl

@[simp] theorem State.handToOwner_pending (s : State) (tag : Byte) : (s.handToOwner tag).pending = s.pending := rfl

@[simp] theorem State.nextEvent_resetn (s : State) : (s.nextEvent).resetn = s.resetn := rfl

@[simp] theorem State.nextEvent_trigLevel (s : State) : (s.nextEvent).trigLevel = s.trigLevel := rfl

@[simp] theorem State.nextEvent_arrayState (s : State) : (s.nextEvent).arrayState = s.arrayState := rfl

@[simp] theorem State.nextEvent_array (s : State) : (s.nextEvent).array = s.array := rfl

@[simp] theorem State.nextEvent_aliases (s : State) : (s.nextEvent).aliases = s.aliases := rfl

@[simp] theorem State.nextEvent_port (s : State) : (s.nextEvent).port = s.port := rfl

@[simp] theorem State.nextEvent_hostWaiting (s : State) : (s.nextEvent).hostWaiting = s.hostWaiting := rfl

@[simp] theorem State.nextEvent_hostClaimAge (s : State) : (s.nextEvent).hostClaimAge = s.hostClaimAge := rfl

@[simp] theorem State.nextEvent_lanes (s : State) : (s.nextEvent).lanes = s.lanes := rfl

@[simp] theorem State.nextEvent_groups (s : State) : (s.nextEvent).groups = s.groups := rfl

@[simp] theorem State.nextEvent_notices (s : State) : (s.nextEvent).notices = s.notices := rfl

@[simp] theorem State.nextEvent_link (s : State) : (s.nextEvent).link = s.link := rfl

@[simp] theorem State.nextEvent_tx (s : State) : (s.nextEvent).tx = s.tx := rfl

@[simp] theorem State.nextEvent_now (s : State) : (s.nextEvent).now = s.now := rfl

@[simp] theorem State.nextEvent_stalls (s : State) : (s.nextEvent).stalls = s.stalls := rfl

@[simp] theorem State.nextEvent_pending (s : State) : (s.nextEvent).pending = s.pending := rfl

@[simp] theorem State.freePort_resetn (s : State) : (s.freePort).resetn = s.resetn := rfl

@[simp] theorem State.freePort_trigLevel (s : State) : (s.freePort).trigLevel = s.trigLevel := rfl

@[simp] theorem State.freePort_arrayState (s : State) : (s.freePort).arrayState = s.arrayState := rfl

@[simp] theorem State.freePort_array (s : State) : (s.freePort).array = s.array := rfl

@[simp] theorem State.freePort_aliases (s : State) : (s.freePort).aliases = s.aliases := rfl

@[simp] theorem State.freePort_hostWaiting (s : State) : (s.freePort).hostWaiting = s.hostWaiting := rfl

@[simp] theorem State.freePort_hostClaimAge (s : State) : (s.freePort).hostClaimAge = s.hostClaimAge := rfl

@[simp] theorem State.freePort_lanes (s : State) : (s.freePort).lanes = s.lanes := rfl

@[simp] theorem State.freePort_groups (s : State) : (s.freePort).groups = s.groups := rfl

@[simp] theorem State.freePort_notices (s : State) : (s.freePort).notices = s.notices := rfl

@[simp] theorem State.freePort_link (s : State) : (s.freePort).link = s.link := rfl

@[simp] theorem State.freePort_tx (s : State) : (s.freePort).tx = s.tx := rfl

@[simp] theorem State.freePort_event (s : State) : (s.freePort).event = s.event := rfl

@[simp] theorem State.freePort_now (s : State) : (s.freePort).now = s.now := rfl

@[simp] theorem State.freePort_stalls (s : State) : (s.freePort).stalls = s.stalls := rfl

@[simp] theorem State.freePort_pending (s : State) : (s.freePort).pending = s.pending := rfl

@[simp] theorem State.occupy_resetn (s : State) (op : Operation) (n : Nat) : (s.occupy op n).resetn = s.resetn := rfl

@[simp] theorem State.occupy_trigLevel (s : State) (op : Operation) (n : Nat) : (s.occupy op n).trigLevel = s.trigLevel := rfl

@[simp] theorem State.occupy_arrayState (s : State) (op : Operation) (n : Nat) : (s.occupy op n).arrayState = s.arrayState := rfl

@[simp] theorem State.occupy_array (s : State) (op : Operation) (n : Nat) : (s.occupy op n).array = s.array := rfl

@[simp] theorem State.occupy_aliases (s : State) (op : Operation) (n : Nat) : (s.occupy op n).aliases = s.aliases := rfl

@[simp] theorem State.occupy_hostWaiting (s : State) (op : Operation) (n : Nat) : (s.occupy op n).hostWaiting = s.hostWaiting := rfl

@[simp] theorem State.occupy_hostClaimAge (s : State) (op : Operation) (n : Nat) : (s.occupy op n).hostClaimAge = s.hostClaimAge := rfl

@[simp] theorem State.occupy_lanes (s : State) (op : Operation) (n : Nat) : (s.occupy op n).lanes = s.lanes := rfl

@[simp] theorem State.occupy_groups (s : State) (op : Operation) (n : Nat) : (s.occupy op n).groups = s.groups := rfl

@[simp] theorem State.occupy_notices (s : State) (op : Operation) (n : Nat) : (s.occupy op n).notices = s.notices := rfl

@[simp] theorem State.occupy_link (s : State) (op : Operation) (n : Nat) : (s.occupy op n).link = s.link := rfl

@[simp] theorem State.occupy_tx (s : State) (op : Operation) (n : Nat) : (s.occupy op n).tx = s.tx := rfl

@[simp] theorem State.occupy_event (s : State) (op : Operation) (n : Nat) : (s.occupy op n).event = s.event := rfl

@[simp] theorem State.occupy_now (s : State) (op : Operation) (n : Nat) : (s.occupy op n).now = s.now := rfl

@[simp] theorem State.occupy_stalls (s : State) (op : Operation) (n : Nat) : (s.occupy op n).stalls = s.stalls := rfl

@[simp] theorem State.occupy_pending (s : State) (op : Operation) (n : Nat) : (s.occupy op n).pending = s.pending := rfl

@[simp] theorem State.heard_resetn (s : State) : (s.heard).resetn = s.resetn := rfl

@[simp] theorem State.heard_trigLevel (s : State) : (s.heard).trigLevel = s.trigLevel := rfl

@[simp] theorem State.heard_arrayState (s : State) : (s.heard).arrayState = s.arrayState := rfl

@[simp] theorem State.heard_array (s : State) : (s.heard).array = s.array := rfl

@[simp] theorem State.heard_aliases (s : State) : (s.heard).aliases = s.aliases := rfl

@[simp] theorem State.heard_port (s : State) : (s.heard).port = s.port := rfl

@[simp] theorem State.heard_hostWaiting (s : State) : (s.heard).hostWaiting = s.hostWaiting := rfl

@[simp] theorem State.heard_hostClaimAge (s : State) : (s.heard).hostClaimAge = s.hostClaimAge := rfl

@[simp] theorem State.heard_lanes (s : State) : (s.heard).lanes = s.lanes := rfl

@[simp] theorem State.heard_groups (s : State) : (s.heard).groups = s.groups := rfl

@[simp] theorem State.heard_notices (s : State) : (s.heard).notices = s.notices := rfl

@[simp] theorem State.heard_tx (s : State) : (s.heard).tx = s.tx := rfl

@[simp] theorem State.heard_now (s : State) : (s.heard).now = s.now := rfl

@[simp] theorem State.heard_stalls (s : State) : (s.heard).stalls = s.stalls := rfl

@[simp] theorem State.heard_pending (s : State) : (s.heard).pending = s.pending := rfl

/-! ## The fields an update changes -/

@[simp] theorem State.setLane_lanes (s : State) (l : LaneId) (x : Lane) : (s.setLane l x).lanes = s.lanes.set l x := rfl

@[simp] theorem State.setGroup_groups (s : State) (g : GroupName) (x : Group) :
    (s.setGroup g x).groups = s.groups.set g x := rfl

@[simp] theorem State.addReply_replies (s : State) (r : Reply) : (s.addReply r).tx.replies = s.tx.replies ++ [r] := rfl

@[simp] theorem State.addReply_sending (s : State) (r : Reply) : (s.addReply r).tx.sending = s.tx.sending := rfl

@[simp] theorem State.addReply_replyCount (s : State) (r : Reply) : (s.addReply r).tx.replyCount = s.tx.replyCount := rfl

@[simp] theorem State.nextEvent_event (s : State) : s.nextEvent.event = s.event + 1 := rfl

@[simp] theorem State.heard_event (s : State) : s.heard.event = s.event + 1 := rfl

@[simp] theorem State.freePort_inFlight (s : State) : s.freePort.port.inFlight = none := rfl

@[simp] theorem State.freePort_laneGrants (s : State) : s.freePort.port.laneGrants = s.port.laneGrants := rfl

@[simp] theorem State.hunt_table (s : State) (b : Bool) : (s.hunt b).link.table = s.link.table := rfl

@[simp] theorem State.hunt_deviceReset (s : State) (b : Bool) : (s.hunt b).link.deviceReset = s.link.deviceReset := rfl

@[simp] theorem State.hunt_rate (s : State) (b : Bool) : (s.hunt b).link.rate = s.link.rate := rfl

@[simp] theorem State.setReceiver_receiver (s : State) (r : Receiver) : (s.setReceiver r).link.receiver = r := rfl

@[simp] theorem State.setReceiver_setReceiver (s : State) (r q : Receiver) :
    (s.setReceiver r).setReceiver q = s.setReceiver q := rfl

/-- A frame's end begins a new event and leaves the receiver HUNTING. -/
theorem State.hunt_nextEvent (s : State) : s.nextEvent.hunt false = s.heard := rfl

/-! ## A look-up sees through an update of another field -/

@[simp] theorem State.group_setLane (s : State) (l : LaneId) (x : Lane) (h : GroupName) : (s.setLane l x).group h = s.group h := rfl

@[simp] theorem State.aliasAt_setLane (s : State) (l : LaneId) (x : Lane) (k : AliasNo) : (s.setLane l x).aliasAt k = s.aliasAt k := rfl

@[simp] theorem State.entryOf_setLane (s : State) (l : LaneId) (x : Lane) (t : Byte) : (s.setLane l x).entryOf t = s.entryOf t := rfl

@[simp] theorem State.lane_setGroup (s : State) (g : GroupName) (x : Group) (m : LaneId) : (s.setGroup g x).lane m = s.lane m := rfl

@[simp] theorem State.aliasAt_setGroup (s : State) (g : GroupName) (x : Group) (k : AliasNo) : (s.setGroup g x).aliasAt k = s.aliasAt k := rfl

@[simp] theorem State.entryOf_setGroup (s : State) (g : GroupName) (x : Group) (t : Byte) : (s.setGroup g x).entryOf t = s.entryOf t := rfl

@[simp] theorem State.lane_setAlias (s : State) (n : AliasNo) (e : AliasEntry) (m : LaneId) : (s.setAlias n e).lane m = s.lane m := rfl

@[simp] theorem State.group_setAlias (s : State) (n : AliasNo) (e : AliasEntry) (h : GroupName) : (s.setAlias n e).group h = s.group h := rfl

@[simp] theorem State.entryOf_setAlias (s : State) (n : AliasNo) (e : AliasEntry) (t : Byte) : (s.setAlias n e).entryOf t = s.entryOf t := rfl

@[simp] theorem State.lane_addReply (s : State) (r : Reply) (m : LaneId) : (s.addReply r).lane m = s.lane m := rfl

@[simp] theorem State.group_addReply (s : State) (r : Reply) (h : GroupName) : (s.addReply r).group h = s.group h := rfl

@[simp] theorem State.aliasAt_addReply (s : State) (r : Reply) (k : AliasNo) : (s.addReply r).aliasAt k = s.aliasAt k := rfl

@[simp] theorem State.entryOf_addReply (s : State) (r : Reply) (t : Byte) : (s.addReply r).entryOf t = s.entryOf t := rfl

@[simp] theorem State.lane_countNoRoom (s : State) (m : LaneId) : (s.countNoRoom).lane m = s.lane m := rfl

@[simp] theorem State.group_countNoRoom (s : State) (h : GroupName) : (s.countNoRoom).group h = s.group h := rfl

@[simp] theorem State.aliasAt_countNoRoom (s : State) (k : AliasNo) : (s.countNoRoom).aliasAt k = s.aliasAt k := rfl

@[simp] theorem State.lane_hunt (s : State) (b : Bool) (m : LaneId) : (s.hunt b).lane m = s.lane m := rfl

@[simp] theorem State.group_hunt (s : State) (b : Bool) (h : GroupName) : (s.hunt b).group h = s.group h := rfl

@[simp] theorem State.aliasAt_hunt (s : State) (b : Bool) (k : AliasNo) : (s.hunt b).aliasAt k = s.aliasAt k := rfl

@[simp] theorem State.lane_setReceiver (s : State) (r : Receiver) (m : LaneId) : (s.setReceiver r).lane m = s.lane m := rfl

@[simp] theorem State.group_setReceiver (s : State) (r : Receiver) (h : GroupName) : (s.setReceiver r).group h = s.group h := rfl

@[simp] theorem State.aliasAt_setReceiver (s : State) (r : Receiver) (k : AliasNo) : (s.setReceiver r).aliasAt k = s.aliasAt k := rfl

@[simp] theorem State.lane_handToOwner (s : State) (tag : Byte) (m : LaneId) : (s.handToOwner tag).lane m = s.lane m := rfl

@[simp] theorem State.group_handToOwner (s : State) (tag : Byte) (h : GroupName) : (s.handToOwner tag).group h = s.group h := rfl

@[simp] theorem State.aliasAt_handToOwner (s : State) (tag : Byte) (k : AliasNo) : (s.handToOwner tag).aliasAt k = s.aliasAt k := rfl

@[simp] theorem State.lane_nextEvent (s : State) (m : LaneId) : (s.nextEvent).lane m = s.lane m := rfl

@[simp] theorem State.group_nextEvent (s : State) (h : GroupName) : (s.nextEvent).group h = s.group h := rfl

@[simp] theorem State.aliasAt_nextEvent (s : State) (k : AliasNo) : (s.nextEvent).aliasAt k = s.aliasAt k := rfl

@[simp] theorem State.entryOf_nextEvent (s : State) (t : Byte) : (s.nextEvent).entryOf t = s.entryOf t := rfl

@[simp] theorem State.lane_freePort (s : State) (m : LaneId) : (s.freePort).lane m = s.lane m := rfl

@[simp] theorem State.group_freePort (s : State) (h : GroupName) : (s.freePort).group h = s.group h := rfl

@[simp] theorem State.aliasAt_freePort (s : State) (k : AliasNo) : (s.freePort).aliasAt k = s.aliasAt k := rfl

@[simp] theorem State.entryOf_freePort (s : State) (t : Byte) : (s.freePort).entryOf t = s.entryOf t := rfl

@[simp] theorem State.lane_occupy (s : State) (op : Operation) (n : Nat) (m : LaneId) : (s.occupy op n).lane m = s.lane m := rfl

@[simp] theorem State.group_occupy (s : State) (op : Operation) (n : Nat) (h : GroupName) : (s.occupy op n).group h = s.group h := rfl

@[simp] theorem State.aliasAt_occupy (s : State) (op : Operation) (n : Nat) (k : AliasNo) : (s.occupy op n).aliasAt k = s.aliasAt k := rfl

@[simp] theorem State.entryOf_occupy (s : State) (op : Operation) (n : Nat) (t : Byte) : (s.occupy op n).entryOf t = s.entryOf t := rfl

@[simp] theorem State.lane_heard (s : State) (m : LaneId) : (s.heard).lane m = s.lane m := rfl

@[simp] theorem State.group_heard (s : State) (h : GroupName) : (s.heard).group h = s.group h := rfl

@[simp] theorem State.aliasAt_heard (s : State) (k : AliasNo) : (s.heard).aliasAt k = s.aliasAt k := rfl

/-! ## Lanes and slots -/

@[simp] theorem Lane.slot_setSlot_same (ln : Lane) (n : SlotName) (x : Slot) : (ln.setSlot n x).slot n = x := by
  cases n <;> rfl

@[simp] theorem Lane.slot_setSlot_other (ln : Lane) (n : SlotName) (x : Slot) :
    (ln.setSlot n x).slot n.other = ln.slot n.other := by
  cases n <;> rfl

@[simp] theorem Lane.slot_other_setSlot (ln : Lane) (n : SlotName) (x : Slot) :
    (ln.setSlot n.other x).slot n = ln.slot n := by
  cases n <;> rfl

@[simp] theorem Lane.setSlot_setSlot (ln : Lane) (n : SlotName) (x y : Slot) :
    (ln.setSlot n x).setSlot n y = ln.setSlot n y := by
  cases n <;> rfl

@[simp] theorem Lane.setSlot_slot (ln : Lane) (n : SlotName) : ln.setSlot n (ln.slot n) = ln := by
  cases n <;> rfl

@[simp] theorem SlotName.other_other (n : SlotName) : n.other.other = n := by
  cases n <;> rfl

@[simp] theorem Lane.setSlot_config (ln : Lane) (n : SlotName) (x : Slot) : (ln.setSlot n x).config = ln.config := by
  cases n <;> rfl

@[simp] theorem Lane.setSlot_state (ln : Lane) (n : SlotName) (x : Slot) : (ln.setSlot n x).state = ln.state := by
  cases n <;> rfl

@[simp] theorem Lane.setSlot_lastCue (ln : Lane) (n : SlotName) (x : Slot) : (ln.setSlot n x).lastCue = ln.lastCue := by
  cases n <;> rfl

@[simp] theorem Lane.setSlot_stopPending (ln : Lane) (n : SlotName) (x : Slot) : (ln.setSlot n x).stopPending = ln.stopPending := by
  cases n <;> rfl

@[simp] theorem Lane.setSlot_awaitingFirstBeat (ln : Lane) (n : SlotName) (x : Slot) : (ln.setSlot n x).awaitingFirstBeat = ln.awaitingFirstBeat := by
  cases n <;> rfl

@[simp] theorem Lane.setSlot_lastWord (ln : Lane) (n : SlotName) (x : Slot) : (ln.setSlot n x).lastWord = ln.lastWord := by
  cases n <;> rfl

@[simp] theorem Lane.setSlot_stallBeats (ln : Lane) (n : SlotName) (x : Slot) : (ln.setSlot n x).stallBeats = ln.stallBeats := by
  cases n <;> rfl

@[simp] theorem Lane.setSlot_lateCues (ln : Lane) (n : SlotName) (x : Slot) : (ln.setSlot n x).lateCues = ln.lateCues := by
  cases n <;> rfl

@[simp] theorem Lane.setSlot_droppedWords (ln : Lane) (n : SlotName) (x : Slot) : (ln.setSlot n x).droppedWords = ln.droppedWords := by
  cases n <;> rfl

@[simp] theorem Lane.setSlot_queue (ln : Lane) (n : SlotName) (x : Slot) : (ln.setSlot n x).queue = ln.queue := by
  cases n <;> rfl

@[simp] theorem Lane.setSlot_nextOrder (ln : Lane) (n : SlotName) (x : Slot) : (ln.setSlot n x).nextOrder = ln.nextOrder := by
  cases n <;> rfl

@[simp] theorem Lane.setSlot_pins (ln : Lane) (n : SlotName) (x : Slot) : (ln.setSlot n x).pins = ln.pins := by
  cases n <;> rfl

@[simp] theorem Lane.setSlot_dividerStart (ln : Lane) (n : SlotName) (x : Slot) : (ln.setSlot n x).dividerStart = ln.dividerStart := by
  cases n <;> rfl

@[simp] theorem Lane.setSlot_lastEdge (ln : Lane) (n : SlotName) (x : Slot) : (ln.setSlot n x).lastEdge = ln.lastEdge := by
  cases n <;> rfl

@[simp] theorem Lane.quiet_config (ln : Lane) : (ln.quiet).config = ln.config := rfl

@[simp] theorem Lane.quiet_state (ln : Lane) : (ln.quiet).state = ln.state := rfl

@[simp] theorem Lane.quiet_lastCue (ln : Lane) : (ln.quiet).lastCue = ln.lastCue := rfl

@[simp] theorem Lane.quiet_stopPending (ln : Lane) : (ln.quiet).stopPending = ln.stopPending := rfl

@[simp] theorem Lane.quiet_awaitingFirstBeat (ln : Lane) : (ln.quiet).awaitingFirstBeat = ln.awaitingFirstBeat := rfl

@[simp] theorem Lane.quiet_lastWord (ln : Lane) : (ln.quiet).lastWord = ln.lastWord := rfl

@[simp] theorem Lane.quiet_stallBeats (ln : Lane) : (ln.quiet).stallBeats = ln.stallBeats := rfl

@[simp] theorem Lane.quiet_lateCues (ln : Lane) : (ln.quiet).lateCues = ln.lateCues := rfl

@[simp] theorem Lane.quiet_droppedWords (ln : Lane) : (ln.quiet).droppedWords = ln.droppedWords := rfl

@[simp] theorem Lane.quiet_queue (ln : Lane) : (ln.quiet).queue = ln.queue := rfl

@[simp] theorem Lane.quiet_nextOrder (ln : Lane) : (ln.quiet).nextOrder = ln.nextOrder := rfl

@[simp] theorem Lane.quiet_dividerStart (ln : Lane) : (ln.quiet).dividerStart = ln.dividerStart := rfl

@[simp] theorem Lane.quiet_lastEdge (ln : Lane) : (ln.quiet).lastEdge = ln.lastEdge := rfl

@[simp] theorem Lane.quiet_slotA (ln : Lane) : (ln.quiet).slotA = ln.slotA := rfl

@[simp] theorem Lane.quiet_slotB (ln : Lane) : (ln.quiet).slotB = ln.slotB := rfl

@[simp] theorem Lane.holdWord_config (ln : Lane) : (ln.holdWord).config = ln.config := rfl

@[simp] theorem Lane.holdWord_state (ln : Lane) : (ln.holdWord).state = ln.state := rfl

@[simp] theorem Lane.holdWord_lastCue (ln : Lane) : (ln.holdWord).lastCue = ln.lastCue := rfl

@[simp] theorem Lane.holdWord_stopPending (ln : Lane) : (ln.holdWord).stopPending = ln.stopPending := rfl

@[simp] theorem Lane.holdWord_awaitingFirstBeat (ln : Lane) : (ln.holdWord).awaitingFirstBeat = ln.awaitingFirstBeat := rfl

@[simp] theorem Lane.holdWord_lastWord (ln : Lane) : (ln.holdWord).lastWord = ln.lastWord := rfl

@[simp] theorem Lane.holdWord_stallBeats (ln : Lane) : (ln.holdWord).stallBeats = ln.stallBeats := rfl

@[simp] theorem Lane.holdWord_lateCues (ln : Lane) : (ln.holdWord).lateCues = ln.lateCues := rfl

@[simp] theorem Lane.holdWord_droppedWords (ln : Lane) : (ln.holdWord).droppedWords = ln.droppedWords := rfl

@[simp] theorem Lane.holdWord_queue (ln : Lane) : (ln.holdWord).queue = ln.queue := rfl

@[simp] theorem Lane.holdWord_nextOrder (ln : Lane) : (ln.holdWord).nextOrder = ln.nextOrder := rfl

@[simp] theorem Lane.holdWord_dividerStart (ln : Lane) : (ln.holdWord).dividerStart = ln.dividerStart := rfl

@[simp] theorem Lane.holdWord_lastEdge (ln : Lane) : (ln.holdWord).lastEdge = ln.lastEdge := rfl

@[simp] theorem Lane.holdWord_slotA (ln : Lane) : (ln.holdWord).slotA = ln.slotA := rfl

@[simp] theorem Lane.holdWord_slotB (ln : Lane) : (ln.holdWord).slotB = ln.slotB := rfl

@[simp] theorem Lane.present_config (ln : Lane) (w : Byte) (b : Bool) : (ln.present w b).config = ln.config := rfl

@[simp] theorem Lane.present_state (ln : Lane) (w : Byte) (b : Bool) : (ln.present w b).state = ln.state := rfl

@[simp] theorem Lane.present_lastCue (ln : Lane) (w : Byte) (b : Bool) : (ln.present w b).lastCue = ln.lastCue := rfl

@[simp] theorem Lane.present_stopPending (ln : Lane) (w : Byte) (b : Bool) : (ln.present w b).stopPending = ln.stopPending := rfl

@[simp] theorem Lane.present_awaitingFirstBeat (ln : Lane) (w : Byte) (b : Bool) : (ln.present w b).awaitingFirstBeat = ln.awaitingFirstBeat := rfl

@[simp] theorem Lane.present_stallBeats (ln : Lane) (w : Byte) (b : Bool) : (ln.present w b).stallBeats = ln.stallBeats := rfl

@[simp] theorem Lane.present_lateCues (ln : Lane) (w : Byte) (b : Bool) : (ln.present w b).lateCues = ln.lateCues := rfl

@[simp] theorem Lane.present_droppedWords (ln : Lane) (w : Byte) (b : Bool) : (ln.present w b).droppedWords = ln.droppedWords := rfl

@[simp] theorem Lane.present_queue (ln : Lane) (w : Byte) (b : Bool) : (ln.present w b).queue = ln.queue := rfl

@[simp] theorem Lane.present_nextOrder (ln : Lane) (w : Byte) (b : Bool) : (ln.present w b).nextOrder = ln.nextOrder := rfl

@[simp] theorem Lane.present_dividerStart (ln : Lane) (w : Byte) (b : Bool) : (ln.present w b).dividerStart = ln.dividerStart := rfl

@[simp] theorem Lane.present_lastEdge (ln : Lane) (w : Byte) (b : Bool) : (ln.present w b).lastEdge = ln.lastEdge := rfl

@[simp] theorem Lane.present_slotA (ln : Lane) (w : Byte) (b : Bool) : (ln.present w b).slotA = ln.slotA := rfl

@[simp] theorem Lane.present_slotB (ln : Lane) (w : Byte) (b : Bool) : (ln.present w b).slotB = ln.slotB := rfl

@[simp] theorem Lane.drivesMark_config (ln : Lane) (b : Bool) : (ln.drivesMark b).config = ln.config := rfl

@[simp] theorem Lane.drivesMark_state (ln : Lane) (b : Bool) : (ln.drivesMark b).state = ln.state := rfl

@[simp] theorem Lane.drivesMark_lastCue (ln : Lane) (b : Bool) : (ln.drivesMark b).lastCue = ln.lastCue := rfl

@[simp] theorem Lane.drivesMark_stopPending (ln : Lane) (b : Bool) : (ln.drivesMark b).stopPending = ln.stopPending := rfl

@[simp] theorem Lane.drivesMark_awaitingFirstBeat (ln : Lane) (b : Bool) : (ln.drivesMark b).awaitingFirstBeat = ln.awaitingFirstBeat := rfl

@[simp] theorem Lane.drivesMark_lastWord (ln : Lane) (b : Bool) : (ln.drivesMark b).lastWord = ln.lastWord := rfl

@[simp] theorem Lane.drivesMark_stallBeats (ln : Lane) (b : Bool) : (ln.drivesMark b).stallBeats = ln.stallBeats := rfl

@[simp] theorem Lane.drivesMark_lateCues (ln : Lane) (b : Bool) : (ln.drivesMark b).lateCues = ln.lateCues := rfl

@[simp] theorem Lane.drivesMark_droppedWords (ln : Lane) (b : Bool) : (ln.drivesMark b).droppedWords = ln.droppedWords := rfl

@[simp] theorem Lane.drivesMark_queue (ln : Lane) (b : Bool) : (ln.drivesMark b).queue = ln.queue := rfl

@[simp] theorem Lane.drivesMark_nextOrder (ln : Lane) (b : Bool) : (ln.drivesMark b).nextOrder = ln.nextOrder := rfl

@[simp] theorem Lane.drivesMark_dividerStart (ln : Lane) (b : Bool) : (ln.drivesMark b).dividerStart = ln.dividerStart := rfl

@[simp] theorem Lane.drivesMark_lastEdge (ln : Lane) (b : Bool) : (ln.drivesMark b).lastEdge = ln.lastEdge := rfl

@[simp] theorem Lane.drivesMark_slotA (ln : Lane) (b : Bool) : (ln.drivesMark b).slotA = ln.slotA := rfl

@[simp] theorem Lane.drivesMark_slotB (ln : Lane) (b : Bool) : (ln.drivesMark b).slotB = ln.slotB := rfl

end Sys2Proof.Machine
end

