-- ==== Sys2Proof/Laws/Requests.lean ====
section
/-! SUPPORT. A request's way: arrival, dispatch, the owner, the answer. Each shared operation with one lemma that says what it
does. -/

namespace Sys2Proof.Machine

open Sys2Proof

/-! ## Events -/

/-- While RESETN is high an event is its effect on the state of the next event number, then the transmitter's choice. -/
theorem State.happen_high (s : State) (f : State → State) (h : s.resetn = true) :
    s.happen f = .next (f s.nextEvent).transmit := by
  simp [State.happen, h]

/-- While RESETN is low no event happens (R155). -/
theorem State.happen_low (s : State) (f : State → State) (h : s.resetn = false) : s.happen f = .next s := by
  simp [State.happen, h]

/-! ## Tags -/

/-- A tag that no entry has is the tag of no entry. -/
theorem State.entryOf_none (s : State) (tag : Byte) (h : s.entryOf tag = none) : ∀ e ∈ s.link.table, e.tag ≠ tag := by
  intro e he
  have := List.find?_eq_none.mp h e he
  simpa using this

/-- A tag that some entry has is found. -/
theorem State.entryOf_isSome (s : State) (tag : Byte) (h : ∃ e ∈ s.link.table, e.tag = tag) :
    (s.entryOf tag).isSome = true := by
  obtain ⟨e, he, ht⟩ := h
  exact List.find?_isSome.mpr ⟨e, he, by simpa using ht⟩

/-! ## The answer (R146) -/

/-- What an answer does: the entry leaves the table and its reply joins the reply list. -/
theorem State.answer_some (s : State) (tag : Byte) (e : Entry) (status : Status) (fields : ReplyFields)
    (h : s.entryOf tag = some e) :
    s.answer tag status fields =
      { s with
        link := { s.link with table := s.link.table.filter fun x => x.tag ≠ tag }
        tx := { s.tx with replies := s.tx.replies ++
          [{ kind := .answer, tag := tag, code := e.code, status := status, fields := fields }] } } := by
  simp only [State.answer, h]
  rfl

/-- With no entry of the tag there is nothing to answer. -/
theorem State.answer_none (s : State) (tag : Byte) (status : Status) (fields : ReplyFields)
    (h : s.entryOf tag = none) : s.answer tag status fields = s := by
  simp [State.answer, h]

/-- The answer of the entry that came last, its tag being new. -/
theorem State.answer_last (s : State) (t : List Entry) (e : Entry) (status : Status) (fields : ReplyFields)
    (table : s.link.table = t ++ [e]) (fresh : ∀ x ∈ t, x.tag ≠ e.tag) :
    s.answer e.tag status fields =
      { s with
        link := { s.link with table := t }
        tx := { s.tx with replies := s.tx.replies ++
          [{ kind := .answer, tag := e.tag, code := e.code, status := status, fields := fields }] } } := by
  have found : s.entryOf e.tag = some e := by
    have hn : t.find? (fun x => decide (x.tag = e.tag)) = none := List.find?_eq_none.mpr (by simpa using fresh)
    simp [State.entryOf, table, List.find?_append, hn]
  have rest : (t ++ [e]).filter (fun x => decide (x.tag ≠ e.tag)) = t := by
    have ht : t.filter (fun x => decide (x.tag ≠ e.tag)) = t := List.filter_eq_self.mpr (by simpa using fresh)
    rw [List.filter_append, ht]
    simp
  rw [State.answer_some s e.tag e status fields found, table, rest]

/-- The answer of a request that is kept open and whose owner changed neither the table nor anything the answer reads. -/
theorem State.answer_opened (s u : State) (tag code : Byte) (payload : List Byte) (st : EntryState) (status : Status)
    (fields : ReplyFields) (h : s.Admits tag payload)
    (table : u.link.table = s.link.table ++ [{ tag := tag, code := code, payload := payload, state := st }]) :
    u.answer tag status fields =
      { u with
        link := { u.link with table := s.link.table }
        tx := { u.tx with replies := u.tx.replies ++
          [{ kind := .answer, tag := tag, code := code, status := status, fields := fields }] } } :=
  State.answer_last u s.link.table ⟨tag, code, payload, st⟩ status fields table (s.entryOf_none tag h.freeTag)

/-! ## Arrival and dispatch (R144, R145) -/

/-- An admitted request makes its entry, which is served in the same event. -/
theorem State.receive_admitted (s : State) (tag code : Byte) (payload : List Byte) (serve : Service)
    (h : s.Admits tag payload) :
    s.happen (fun s => s.receiveRequest tag code payload serve) =
      .next (serve { tag := tag, code := code, payload := payload, state := .received }
        { s.heard with link := { s.heard.link with
            table := s.link.table ++ [{ tag := tag, code := code, payload := payload, state := .received }] } }).transmit := by
  have hd : s.link.deviceReset.isSome = false := by rw [h.noDeviceReset]; rfl
  have hp : ¬ Config.tablePlaces ≤ s.heard.placesHeld := Nat.not_le.mpr h.place
  have ht : (s.heard.entryOf tag).isSome = false := by
    rw [show s.heard.entryOf tag = s.entryOf tag from rfl, h.freeTag]; rfl
  have hd' : s.heard.link.deviceReset.isSome = false := hd
  rw [State.happen_high s _ h.arrives.resetn]
  simp only [State.receiveRequest, h.arrives.fits, if_true, State.hunt_nextEvent, State.arrive, hd', hp, ht]
  rfl

/-- Check 2 of R145 fails: MALFORMED, and nothing else changes. -/
theorem State.receive_malformed {α : Type} (s : State) (tag code : Byte) (payload : List Byte)
    (parse : List Byte → Parsed α) (owner : Entry → α → State → State) (h : s.Admits tag payload)
    (hp : parse payload = .malformed) :
    s.happen (fun s => s.receiveRequest tag code payload (dispatchTo parse owner)) =
      .next (s.replied tag code .malformed .none).transmit := by
  rw [State.receive_admitted s tag code payload _ h]
  simp only [dispatchTo, hp]
  rw [State.answer_opened s _ tag code payload .received .malformed .none h rfl]
  rfl

/-- Check 3 of R145 fails: BAD FIELD, and nothing else changes. -/
theorem State.receive_badField {α : Type} (s : State) (tag code : Byte) (payload : List Byte)
    (parse : List Byte → Parsed α) (owner : Entry → α → State → State) (h : s.Admits tag payload)
    (hp : parse payload = .badField) :
    s.happen (fun s => s.receiveRequest tag code payload (dispatchTo parse owner)) =
      .next (s.replied tag code .badField .none).transmit := by
  rw [State.receive_admitted s tag code payload _ h]
  simp only [dispatchTo, hp]
  rw [State.answer_opened s _ tag code payload .received .badField .none h rfl]
  rfl

/-- Handing the newest entry to its owner. -/
theorem State.handToOwner_last (s : State) (t : List Entry) (tag code : Byte) (payload : List Byte) (st : EntryState)
    (table : s.link.table = t ++ [{ tag := tag, code := code, payload := payload, state := st }])
    (fresh : ∀ x ∈ t, x.tag ≠ tag) :
    s.handToOwner tag = { s with link := { s.link with
      table := t ++ [{ tag := tag, code := code, payload := payload, state := .withOwner }] } } := by
  have ht : t.map (fun e => if e.tag = tag then { e with state := .withOwner } else e) = t := by
    conv_rhs => rw [← List.map_id t]
    exact List.map_congr_left fun x hx => by simp [fresh x hx]
  simp [State.handToOwner, table, ht]

/-- The checks of R145 pass: the owner acts on the request, which is WITH OWNER. -/
theorem State.receive_fields {α : Type} (s : State) (tag code : Byte) (payload : List Byte)
    (parse : List Byte → Parsed α) (owner : Entry → α → State → State) (x : α) (h : s.Admits tag payload)
    (hp : parse payload = .fields x) :
    s.happen (fun s => s.receiveRequest tag code payload (dispatchTo parse owner)) =
      .next (owner { tag := tag, code := code, payload := payload, state := .received } x
        (s.keptOpen tag code payload)).transmit := by
  rw [State.receive_admitted s tag code payload _ h]
  simp only [dispatchTo, hp]
  rw [State.handToOwner_last _ s.link.table tag code payload .received rfl (s.entryOf_none tag h.freeTag)]
  rfl

/-- An owner that only answers. -/
theorem State.answer_keptOpen (s : State) (tag code : Byte) (payload : List Byte) (status : Status) (fields : ReplyFields)
    (h : s.Admits tag payload) :
    (s.keptOpen tag code payload).answer tag status fields = s.replied tag code status fields := by
  rw [State.answer_opened s _ tag code payload .withOwner status fields h rfl]
  rfl

end Sys2Proof.Machine
end

