-- ==== Sys2Proof/Laws/Lanes.lean ====
section
/-! SUPPORT. What the shared operations of the lane units can do: notices, retirement, staging, halts, resets. -/

namespace Sys2Proof.Machine

open Sys2Proof

/-! ## Offering notices (R131, R137) -/

/-- Outside a device reset an offered notice goes to the queue. -/
theorem State.offer_eq (s : State) (n : Notice) (h : s.link.deviceReset = none) :
    s.offer n = { s with notices := s.notices.join n } := by
  simp [State.offer, h]

/-- In a device reset it goes nowhere. -/
theorem State.offer_deviceReset (s : State) (n : Notice) (h : s.link.deviceReset ≠ none) : s.offer n = s := by
  cases hd : s.link.deviceReset with
  | none => exact absurd hd h
  | some t => simp [State.offer, hd]

/-- An offer touches the notice queue alone. -/
theorem State.offer_frame (s : State) (n : Notice) : s.offer n = { s with notices := (s.offer n).notices } := by
  unfold State.offer
  split <;> rfl

@[simp] theorem State.offer_resetn (s : State) (n : Notice) : (s.offer n).resetn = s.resetn := by
  rw [State.offer_frame]

@[simp] theorem State.offer_trigLevel (s : State) (n : Notice) : (s.offer n).trigLevel = s.trigLevel := by
  rw [State.offer_frame]

@[simp] theorem State.offer_arrayState (s : State) (n : Notice) : (s.offer n).arrayState = s.arrayState := by
  rw [State.offer_frame]

@[simp] theorem State.offer_array (s : State) (n : Notice) : (s.offer n).array = s.array := by
  rw [State.offer_frame]

@[simp] theorem State.offer_aliases (s : State) (n : Notice) : (s.offer n).aliases = s.aliases := by
  rw [State.offer_frame]

@[simp] theorem State.offer_port (s : State) (n : Notice) : (s.offer n).port = s.port := by
  rw [State.offer_frame]

@[simp] theorem State.offer_hostWaiting (s : State) (n : Notice) : (s.offer n).hostWaiting = s.hostWaiting := by
  rw [State.offer_frame]

@[simp] theorem State.offer_hostClaimAge (s : State) (n : Notice) : (s.offer n).hostClaimAge = s.hostClaimAge := by
  rw [State.offer_frame]

@[simp] theorem State.offer_lanes (s : State) (n : Notice) : (s.offer n).lanes = s.lanes := by
  rw [State.offer_frame]

@[simp] theorem State.offer_groups (s : State) (n : Notice) : (s.offer n).groups = s.groups := by
  rw [State.offer_frame]

@[simp] theorem State.offer_link (s : State) (n : Notice) : (s.offer n).link = s.link := by
  rw [State.offer_frame]

@[simp] theorem State.offer_tx (s : State) (n : Notice) : (s.offer n).tx = s.tx := by
  rw [State.offer_frame]

@[simp] theorem State.offer_event (s : State) (n : Notice) : (s.offer n).event = s.event := by
  rw [State.offer_frame]

@[simp] theorem State.offer_now (s : State) (n : Notice) : (s.offer n).now = s.now := by
  rw [State.offer_frame]

@[simp] theorem State.offer_stalls (s : State) (n : Notice) : (s.offer n).stalls = s.stalls := by
  rw [State.offer_frame]

@[simp] theorem State.offer_pending (s : State) (n : Notice) : (s.offer n).pending = s.pending := by
  rw [State.offer_frame]

@[simp] theorem State.offer_lane (s : State) (n : Notice) (l : LaneId) : (s.offer n).lane l = s.lane l := by
  simp [State.lane]

@[simp] theorem State.offer_group (s : State) (n : Notice) (g : GroupName) : (s.offer n).group g = s.group g := by
  simp [State.group]

theorem State.offer_setLane (s : State) (n : Notice) (l : LaneId) (x : Lane) :
    (s.setLane l x).offer n = (s.offer n).setLane l x := by
  unfold State.offer
  rw [State.setLane_link]
  split <;> rfl

theorem State.offer_setGroup (s : State) (n : Notice) (g : GroupName) (x : Group) :
    (s.setGroup g x).offer n = (s.offer n).setGroup g x := by
  unfold State.offer
  rw [State.setGroup_link]
  split <;> rfl

@[simp] theorem State.offerAll_nil (s : State) : s.offerAll [] = s := rfl

@[simp] theorem State.offerAll_cons (s : State) (n : Notice) (ns : List Notice) :
    s.offerAll (n :: ns) = (s.offer n).offerAll ns := rfl

theorem State.offerAll_append (s : State) (ms ns : List Notice) :
    s.offerAll (ms ++ ns) = (s.offerAll ms).offerAll ns := List.foldl_append ..

/-- Offers touch the notice queue alone. -/
theorem State.offerAll_frame (s : State) (ns : List Notice) :
    s.offerAll ns = { s with notices := (s.offerAll ns).notices } := by
  induction ns generalizing s with
  | nil => rfl
  | cons n ns ih =>
    rw [State.offerAll_cons, ih (s.offer n)]
    simp

@[simp] theorem State.offerAll_resetn (s : State) (ns : List Notice) : (s.offerAll ns).resetn = s.resetn := by
  rw [State.offerAll_frame]

@[simp] theorem State.offerAll_trigLevel (s : State) (ns : List Notice) : (s.offerAll ns).trigLevel = s.trigLevel := by
  rw [State.offerAll_frame]

@[simp] theorem State.offerAll_arrayState (s : State) (ns : List Notice) : (s.offerAll ns).arrayState = s.arrayState := by
  rw [State.offerAll_frame]

@[simp] theorem State.offerAll_array (s : State) (ns : List Notice) : (s.offerAll ns).array = s.array := by
  rw [State.offerAll_frame]

@[simp] theorem State.offerAll_aliases (s : State) (ns : List Notice) : (s.offerAll ns).aliases = s.aliases := by
  rw [State.offerAll_frame]

@[simp] theorem State.offerAll_port (s : State) (ns : List Notice) : (s.offerAll ns).port = s.port := by
  rw [State.offerAll_frame]

@[simp] theorem State.offerAll_hostWaiting (s : State) (ns : List Notice) : (s.offerAll ns).hostWaiting = s.hostWaiting := by
  rw [State.offerAll_frame]

@[simp] theorem State.offerAll_hostClaimAge (s : State) (ns : List Notice) : (s.offerAll ns).hostClaimAge = s.hostClaimAge := by
  rw [State.offerAll_frame]

@[simp] theorem State.offerAll_lanes (s : State) (ns : List Notice) : (s.offerAll ns).lanes = s.lanes := by
  rw [State.offerAll_frame]

@[simp] theorem State.offerAll_groups (s : State) (ns : List Notice) : (s.offerAll ns).groups = s.groups := by
  rw [State.offerAll_frame]

@[simp] theorem State.offerAll_link (s : State) (ns : List Notice) : (s.offerAll ns).link = s.link := by
  rw [State.offerAll_frame]

@[simp] theorem State.offerAll_tx (s : State) (ns : List Notice) : (s.offerAll ns).tx = s.tx := by
  rw [State.offerAll_frame]

@[simp] theorem State.offerAll_event (s : State) (ns : List Notice) : (s.offerAll ns).event = s.event := by
  rw [State.offerAll_frame]

@[simp] theorem State.offerAll_now (s : State) (ns : List Notice) : (s.offerAll ns).now = s.now := by
  rw [State.offerAll_frame]

@[simp] theorem State.offerAll_stalls (s : State) (ns : List Notice) : (s.offerAll ns).stalls = s.stalls := by
  rw [State.offerAll_frame]

@[simp] theorem State.offerAll_pending (s : State) (ns : List Notice) : (s.offerAll ns).pending = s.pending := by
  rw [State.offerAll_frame]

@[simp] theorem State.offerAll_lane (s : State) (ns : List Notice) (l : LaneId) : (s.offerAll ns).lane l = s.lane l := by
  simp [State.lane]

@[simp] theorem State.offerAll_group (s : State) (ns : List Notice) (g : GroupName) :
    (s.offerAll ns).group g = s.group g := by
  simp [State.group]

theorem State.offerAll_setLane (s : State) (ns : List Notice) (l : LaneId) (x : Lane) :
    (s.setLane l x).offerAll ns = (s.offerAll ns).setLane l x := by
  induction ns generalizing s with
  | nil => rfl
  | cons n ns ih => rw [State.offerAll_cons, State.offer_setLane, ih, State.offerAll_cons]

/-- Outside a device reset offered notices go to the queue, in order. -/
theorem State.offerAll_eq (s : State) (ns : List Notice) (h : s.link.deviceReset = none) :
    s.offerAll ns = { s with notices := s.notices.joinAll ns } := by
  induction ns generalizing s with
  | nil => rfl
  | cons n ns ih =>
    rw [State.offerAll_cons, ih _ (by simpa using h), State.offer_eq s n h]
    rfl

/-- A retirement offers the CUE END that R19 calls for. -/
theorem State.retire_eq (s : State) (l : LaneId) (c : HeldCue) (o : CueOutcome) :
    s.retire l c o = s.offerAll (cueEndOf l c o) := by
  cases hn : c.record.notifyEnd <;> cases o <;> simp [State.retire, cueEndOf, hn, CueOutcome.alwaysReported]

/-- Flushed cues are retired one after another. -/
theorem State.retireFlushed_eq (s : State) (l : LaneId) (cs : List HeldCue) :
    s.retireFlushed l cs = s.offerAll (cs.flatMap fun c => cueEndOf l c .flushed) := by
  induction cs generalizing s with
  | nil => rfl
  | cons c cs ih => simp only [State.retireFlushed, State.retire_eq, ih, List.flatMap_cons, State.offerAll_append]

/-! ## Answers and lanes -/

theorem State.answer_setLane (s : State) (tag : Byte) (st : Status) (fields : ReplyFields) (l : LaneId) (x : Lane) :
    (s.setLane l x).answer tag st fields = (s.answer tag st fields).setLane l x := by
  unfold State.answer
  rw [State.entryOf_setLane]
  split <;> rfl

@[simp] theorem State.entryOf_offer (s : State) (n : Notice) (tag : Byte) : (s.offer n).entryOf tag = s.entryOf tag := by
  simp [State.entryOf]

theorem State.answer_offer (s : State) (tag : Byte) (st : Status) (fields : ReplyFields) (n : Notice) :
    (s.offer n).answer tag st fields = (s.answer tag st fields).offer n := by
  cases he : s.entryOf tag with
  | none => rw [State.answer_none _ _ _ _ he, State.answer_none _ _ _ _ (by simpa using he)]
  | some e =>
    rw [State.answer_some _ _ e _ _ he, State.answer_some _ _ e _ _ (by simpa using he)]
    cases hd : s.link.deviceReset <;> simp [State.offer, hd]

theorem State.answer_offerAll (s : State) (tag : Byte) (st : Status) (fields : ReplyFields) (ns : List Notice) :
    (s.offerAll ns).answer tag st fields = (s.answer tag st fields).offerAll ns := by
  induction ns generalizing s with
  | nil => rfl
  | cons n ns ih => rw [State.offerAll_cons, ih, State.answer_offer, State.offerAll_cons]

/-! ## Lane changes -/

@[simp] theorem State.lane_mapLane_same (s : State) (l : LaneId) (f : Lane → Lane) :
    (s.mapLane l f).lane l = f (s.lane l) := by
  simp [State.mapLane]

@[simp] theorem State.lane_mapLane_other (s : State) (l m : LaneId) (f : Lane → Lane) (h : m ≠ l) :
    (s.mapLane l f).lane m = s.lane m := by
  simp [State.mapLane, h]

/-- A halt's slots are determined one by one; halting twice changes nothing more. -/
@[simp] theorem Slot.afterHalt_afterHalt (x : Slot) (n m : Nat) : (x.afterHalt n).afterHalt m = x.afterHalt n := by
  cases x with
  | capturing c w p => cases h : p.begun <;> simp [Slot.afterHalt, h]
  | _ => rfl

/-- After a halt no slot is ACTIVE (R79, R99). -/
@[simp] theorem Slot.progress_afterHalt (x : Slot) (n : Nat) : (x.afterHalt n).progress? = none := by
  cases x with
  | capturing c w p => cases h : p.begun <;> simp [Slot.afterHalt, h, Slot.progress?]
  | _ => rfl

/-- After a reset is taken no slot is ACTIVE (R43). -/
@[simp] theorem Slot.progress_afterReset (x : Slot) : x.afterReset.progress? = none := by
  cases x <;> rfl

/-- A reset leaves a slot EMPTY unless its operation is in flight (R43). -/
theorem Slot.afterReset_cases (x : Slot) :
    x.afterReset = .empty ∨ x.afterReset = .discarding ∨ ∃ w r, x.afterReset = .committing none w r := by
  cases x <;> simp [Slot.afterReset]

/-- One halt of a play lane, as one update and its notices (R79 to R82). -/
theorem State.haltPlay_eq (s : State) (l : LaneId) (reason : HaltReason) :
    s.haltPlay l reason =
      (s.setLane l ((s.lane l).stopIn (.halted reason) s.event)).offerAll
        ((match (s.lane l).halted? with
          | some (c, o) => cueEndOf l c o
          | none => []) ++
          [.laneHalted l reason (s.lane l).lastCue ((s.lane l).returned.map fun c => c.record.id)]) := by
  simp only [State.haltPlay, State.retire_eq]
  cases (s.lane l).halted? with
  | none => rfl
  | some x => simp only [State.offerAll_append]; rfl

/-- One halt of a capture lane (R99, R100). -/
theorem State.haltCapture_eq (s : State) (l : LaneId) (reason : HaltReason) :
    s.haltCapture l reason =
      let ids := (s.lane l).returned.map fun c => c.record.id
      if ((s.lane l).slotA.afterHalt s.event).owesCommit || ((s.lane l).slotB.afterHalt s.event).owesCommit then
        s.setLane l ((s.lane l).stopIn (.ending reason ids) s.event)
      else
        (s.setLane l ((s.lane l).stopIn (.halted reason) s.event)).offer
          (.laneHalted l reason (s.lane l).lastCue ids) := by
  simp only [State.haltCapture, State.leaveEnding, State.lane_setLane_same, Lane.stopIn, State.setLane_setLane]

/-- A halt of one lane touches that lane and the notice queue alone. -/
theorem State.haltOne_frame (s : State) (l : LaneId) (reason : HaltReason) :
    s.haltOne l reason =
      { s.setLane l ((s.haltOne l reason).lane l) with notices := (s.haltOne l reason).notices } := by
  unfold State.haltOne
  split
  · split
    · rw [State.haltPlay_eq, State.offerAll_frame]
      simp only [State.lane, State.setLane, PerLane.get_set_same]
    · rw [State.haltCapture_eq]
      dsimp only
      split
      · simp [State.lane, State.setLane]
      · rw [State.offer_frame]
        simp only [State.lane, State.setLane, PerLane.get_set_same]
  · simp

@[simp] theorem State.haltOne_lane_other (s : State) (l m : LaneId) (reason : HaltReason) (h : m ≠ l) :
    (s.haltOne l reason).lane m = s.lane m := by
  rw [State.haltOne_frame]
  exact State.lane_setLane_other s l m _ h

/-! ## Owed LANE STALLs (R77) -/

@[simp] theorem State.oweStall_resetn (s : State) (l : LaneId) (id : Byte) (cause : StallCause) : (s.oweStall l id cause).resetn = s.resetn := rfl

@[simp] theorem State.oweStall_trigLevel (s : State) (l : LaneId) (id : Byte) (cause : StallCause) : (s.oweStall l id cause).trigLevel = s.trigLevel := rfl

@[simp] theorem State.oweStall_arrayState (s : State) (l : LaneId) (id : Byte) (cause : StallCause) : (s.oweStall l id cause).arrayState = s.arrayState := rfl

@[simp] theorem State.oweStall_array (s : State) (l : LaneId) (id : Byte) (cause : StallCause) : (s.oweStall l id cause).array = s.array := rfl

@[simp] theorem State.oweStall_aliases (s : State) (l : LaneId) (id : Byte) (cause : StallCause) : (s.oweStall l id cause).aliases = s.aliases := rfl

@[simp] theorem State.oweStall_port (s : State) (l : LaneId) (id : Byte) (cause : StallCause) : (s.oweStall l id cause).port = s.port := rfl

@[simp] theorem State.oweStall_hostWaiting (s : State) (l : LaneId) (id : Byte) (cause : StallCause) : (s.oweStall l id cause).hostWaiting = s.hostWaiting := rfl

@[simp] theorem State.oweStall_hostClaimAge (s : State) (l : LaneId) (id : Byte) (cause : StallCause) : (s.oweStall l id cause).hostClaimAge = s.hostClaimAge := rfl

@[simp] theorem State.oweStall_lanes (s : State) (l : LaneId) (id : Byte) (cause : StallCause) : (s.oweStall l id cause).lanes = s.lanes := rfl

@[simp] theorem State.oweStall_groups (s : State) (l : LaneId) (id : Byte) (cause : StallCause) : (s.oweStall l id cause).groups = s.groups := rfl

@[simp] theorem State.oweStall_notices (s : State) (l : LaneId) (id : Byte) (cause : StallCause) : (s.oweStall l id cause).notices = s.notices := rfl

@[simp] theorem State.oweStall_link (s : State) (l : LaneId) (id : Byte) (cause : StallCause) : (s.oweStall l id cause).link = s.link := rfl

@[simp] theorem State.oweStall_tx (s : State) (l : LaneId) (id : Byte) (cause : StallCause) : (s.oweStall l id cause).tx = s.tx := rfl

@[simp] theorem State.oweStall_event (s : State) (l : LaneId) (id : Byte) (cause : StallCause) : (s.oweStall l id cause).event = s.event := rfl

@[simp] theorem State.oweStall_now (s : State) (l : LaneId) (id : Byte) (cause : StallCause) : (s.oweStall l id cause).now = s.now := rfl

@[simp] theorem State.oweStall_pending (s : State) (l : LaneId) (id : Byte) (cause : StallCause) : (s.oweStall l id cause).pending = s.pending := rfl

@[simp] theorem State.oweStall_lane (s : State) (l m : LaneId) (id : Byte) (cause : StallCause) : (s.oweStall l id cause).lane m = s.lane m := rfl

@[simp] theorem State.oweStall_group (s : State) (l : LaneId) (id : Byte) (cause : StallCause) (g : GroupName) :
    (s.oweStall l id cause).group g = s.group g := rfl

@[simp] theorem State.entryOf_oweStall (s : State) (l : LaneId) (id tag : Byte) (cause : StallCause) :
    (s.oweStall l id cause).entryOf tag = s.entryOf tag := rfl

/-- Withdrawing an owed UNDERRUN touches the owed stalls alone (R68). -/
theorem State.excuseUnderrun_frame (s : State) (l : LaneId) :
    s.excuseUnderrun l = { s with stalls := (s.excuseUnderrun l).stalls } := rfl

@[simp] theorem State.excuseUnderrun_lane (s : State) (l m : LaneId) : (s.excuseUnderrun l).lane m = s.lane m := rfl

@[simp] theorem State.excuseUnderrun_group (s : State) (l : LaneId) (g : GroupName) :
    (s.excuseUnderrun l).group g = s.group g := rfl

@[simp] theorem State.excuseUnderrun_event (s : State) (l : LaneId) : (s.excuseUnderrun l).event = s.event := rfl

@[simp] theorem State.excuseUnderrun_link (s : State) (l : LaneId) : (s.excuseUnderrun l).link = s.link := rfl

@[simp] theorem State.excuseUnderrun_notices (s : State) (l : LaneId) : (s.excuseUnderrun l).notices = s.notices := rfl

/-- The report of owed stalls touches the notice queue, and leaves none owed. -/
theorem State.reportStalls_eq (s : State) : s.reportStalls = State.offerAll { s with stalls := [] } s.stallNotices := rfl

theorem State.reportStalls_frame (s : State) :
    s.reportStalls = { s with stalls := [], notices := s.reportStalls.notices } := by
  rw [State.reportStalls_eq, State.offerAll_frame]

/-- With no stall owed there is nothing to report. -/
theorem State.reportStalls_none (s : State) (h : s.stalls = []) : s.reportStalls = s := by
  simp only [State.reportStalls, State.stallNotices, h, List.map_nil, List.foldl_nil]
  cases s
  simp_all

/-- The event's end is selection, then the stalls owed, then the groups. -/
theorem State.endEvent_eq (s : State) : s.endEvent = s.select.reportStalls.regroup := rfl

/-- "In the event that queues it": no LANE STALL outlives its event (R77). -/
@[simp] theorem State.endEvent_stalls (s : State) : s.endEvent.stalls = [] := by
  rw [State.endEvent_eq, show ∀ t : State, t.regroup.stalls = t.stalls from fun _ => rfl, State.reportStalls_frame]

@[simp] theorem State.answer_stalls (s : State) (tag : Byte) (status : Status) (fields : ReplyFields) :
    (s.answer tag status fields).stalls = s.stalls := by
  unfold State.answer
  split <;> rfl

@[simp] theorem State.transmit_stalls (s : State) : s.transmit.stalls = s.stalls := by
  unfold State.transmit
  split
  · rfl
  · split
    · rfl
    · rfl
    · rfl
    · split <;> rfl

end Sys2Proof.Machine
end

