-- ==== Sys2Proof/Laws/Settle.lean ====
section
/-! SUPPORT. What the larger operations of the lane units leave alone: a halt changes lanes and notices, a settling lane also
the LANE STALLs owed, the open request table and the reply list. -/

namespace Sys2Proof.Machine

open Sys2Proof

/-! ## Operations that change lanes, notices and owed stalls alone -/

/-- `t` is `s` but for the lanes, the notice queue and the LANE STALLs owed. -/
def State.LaneWork (s t : State) : Prop := t = { s with lanes := t.lanes, notices := t.notices, stalls := t.stalls }

theorem State.LaneWork.refl (s : State) : s.LaneWork s := rfl

theorem State.LaneWork.trans {s t u : State} (h : s.LaneWork t) (k : t.LaneWork u) : s.LaneWork u := by
  unfold State.LaneWork at *
  rw [k, h]

theorem State.LaneWork.setLane (s : State) (l : LaneId) (x : Lane) : s.LaneWork (s.setLane l x) := rfl

theorem State.LaneWork.mapLane (s : State) (l : LaneId) (f : Lane → Lane) : s.LaneWork (s.mapLane l f) := rfl

theorem State.LaneWork.offer (s : State) (n : Notice) : s.LaneWork (s.offer n) := by
  unfold State.LaneWork State.offer
  split <;> rfl

theorem State.LaneWork.offerAll (s : State) (ns : List Notice) : s.LaneWork (s.offerAll ns) := by
  unfold State.LaneWork
  conv_lhs => rw [State.offerAll_frame]
  simp

theorem State.LaneWork.oweStall (s : State) (l : LaneId) (id : Byte) (cause : StallCause) :
    s.LaneWork (s.oweStall l id cause) := rfl

theorem State.LaneWork.excuseUnderrun (s : State) (l : LaneId) : s.LaneWork (s.excuseUnderrun l) := rfl

theorem State.LaneWork.retire (s : State) (l : LaneId) (c : HeldCue) (o : CueOutcome) : s.LaneWork (s.retire l c o) := by
  rw [State.retire_eq]
  exact State.LaneWork.offerAll s _

theorem State.LaneWork.haltOne (s : State) (l : LaneId) (reason : HaltReason) : s.LaneWork (s.haltOne l reason) := by
  rw [State.haltOne_frame]
  rfl

theorem State.LaneWork.foldl {s : State} (f : State → LaneId → State) (h : ∀ (s : State) (l : LaneId), s.LaneWork (f s l)) (ls : List LaneId) :
    s.LaneWork (ls.foldl f s) := by
  induction ls generalizing s with
  | nil => exact State.LaneWork.refl s
  | cons l ls ih => exact (h s l).trans ih

theorem State.LaneWork.haltOthers (s : State) (l : LaneId) (g : GroupName) : s.LaneWork (s.haltOthers l g) := by
  refine State.LaneWork.foldl _ (fun s m => ?_) laneOrder
  split
  · exact State.LaneWork.haltOne s m .group
  · exact State.LaneWork.refl s

theorem State.LaneWork.halt (s : State) (l : LaneId) (reason : HaltReason) : s.LaneWork (s.halt l reason) := by
  unfold State.halt
  split
  · exact (State.LaneWork.haltOne s l reason).trans (State.LaneWork.haltOthers _ l _)
  · exact State.LaneWork.haltOne s l reason

theorem State.LaneWork.leaveEnding (s : State) (l : LaneId) : s.LaneWork (s.leaveEnding l) := by
  unfold State.leaveEnding
  dsimp only
  split
  · split
    · exact State.LaneWork.refl s
    · exact (State.LaneWork.setLane s l _).trans (State.LaneWork.offer _ _)
  · exact State.LaneWork.refl s

theorem State.LaneWork.actDry (s : State) (l : LaneId) (id : Byte) : s.LaneWork (s.actDry l id) := by
  unfold State.actDry
  split
  · exact State.LaneWork.halt s l .ended
  · exact (State.LaneWork.mapLane s l _).trans (State.LaneWork.oweStall _ _ _ _)

theorem State.LaneWork.stopMembers (s : State) (g : GroupName) : s.LaneWork (s.stopMembers g) :=
  State.LaneWork.foldl _ (fun s m => State.LaneWork.haltOne s m .request) _

theorem State.LaneWork.resetn_eq {s t : State} (h : s.LaneWork t) : t.resetn = s.resetn := by
  rw [h]

theorem State.LaneWork.trigLevel_eq {s t : State} (h : s.LaneWork t) : t.trigLevel = s.trigLevel := by
  rw [h]

theorem State.LaneWork.arrayState_eq {s t : State} (h : s.LaneWork t) : t.arrayState = s.arrayState := by
  rw [h]

theorem State.LaneWork.array_eq {s t : State} (h : s.LaneWork t) : t.array = s.array := by
  rw [h]

theorem State.LaneWork.aliases_eq {s t : State} (h : s.LaneWork t) : t.aliases = s.aliases := by
  rw [h]

theorem State.LaneWork.port_eq {s t : State} (h : s.LaneWork t) : t.port = s.port := by
  rw [h]

theorem State.LaneWork.hostWaiting_eq {s t : State} (h : s.LaneWork t) : t.hostWaiting = s.hostWaiting := by
  rw [h]

theorem State.LaneWork.hostClaimAge_eq {s t : State} (h : s.LaneWork t) : t.hostClaimAge = s.hostClaimAge := by
  rw [h]

theorem State.LaneWork.groups_eq {s t : State} (h : s.LaneWork t) : t.groups = s.groups := by
  rw [h]

theorem State.LaneWork.link_eq {s t : State} (h : s.LaneWork t) : t.link = s.link := by
  rw [h]

theorem State.LaneWork.tx_eq {s t : State} (h : s.LaneWork t) : t.tx = s.tx := by
  rw [h]

theorem State.LaneWork.event_eq {s t : State} (h : s.LaneWork t) : t.event = s.event := by
  rw [h]

theorem State.LaneWork.now_eq {s t : State} (h : s.LaneWork t) : t.now = s.now := by
  rw [h]

theorem State.LaneWork.pending_eq {s t : State} (h : s.LaneWork t) : t.pending = s.pending := by
  rw [h]

/-- A halt owes no LANE STALL (R74, R82). -/
theorem State.halt_stalls (s : State) (l : LaneId) (reason : HaltReason) : (s.halt l reason).stalls = s.stalls := by
  have one : ∀ (t : State) (m : LaneId) (r : HaltReason), (t.haltOne m r).stalls = t.stalls := by
    intro t m r
    rw [State.haltOne_frame]
    rfl
  have others : ∀ (ms : List LaneId) (t : State) (f : State → LaneId → State), (∀ t m, (f t m).stalls = t.stalls) →
      (ms.foldl f t).stalls = t.stalls := by
    intro ms
    induction ms with
    | nil => exact fun t f _ => rfl
    | cons m ms ih => exact fun t f h => (ih (f t m) f h).trans (h t m)
  unfold State.halt
  split
  · refine (others laneOrder _ _ fun t m => ?_).trans (one s l reason)
    split
    · exact one t m .group
    · rfl
  · exact one s l reason

/-! ## A halt, lane by lane -/

/-- What one halt makes of its own lane (R78 to R82, R99, R100). -/
def Lane.halted (ln : Lane) (age : Nat) (reason : HaltReason) : Lane :=
  if ln.state.canHalt then
    match ln.config.mode with
    | .play => ln.stopIn (.halted reason) age
    | .capture =>
      if (ln.slotA.afterHalt age).owesCommit || (ln.slotB.afterHalt age).owesCommit then
        ln.stopIn (.ending reason (ln.returned.map fun c => c.record.id)) age
      else ln.stopIn (.halted reason) age
  else ln

@[simp] theorem State.haltOne_lane_same (s : State) (l : LaneId) (reason : HaltReason) :
    (s.haltOne l reason).lane l = (s.lane l).halted s.event reason := by
  unfold State.haltOne Lane.halted
  split
  · cases hm : (s.lane l).config.mode
    · simp [State.haltPlay_eq]
    · rw [State.haltCapture_eq]
      dsimp only
      split <;> simp
  · rfl

/-- The notices of one lane's halt: its CUE END ahead of its LANE HALTED, which an ENDING lane does not queue yet (R82,
R100). -/
def Lane.haltTold (l : LaneId) (ln : Lane) (age : Nat) (reason : HaltReason) : List Notice :=
  let halted : Notice := .laneHalted l reason ln.lastCue (ln.returned.map fun c => c.record.id)
  if ln.state.canHalt then
    match ln.config.mode with
    | .play => (match ln.halted? with
        | some (c, o) => cueEndOf l c o
        | none => []) ++ [halted]
    | .capture => if (ln.slotA.afterHalt age).owesCommit || (ln.slotB.afterHalt age).owesCommit then [] else [halted]
  else []

/-- One halt, as one lane update and its notices (R78 to R82, R99, R100). -/
theorem State.haltOne_eq (s : State) (l : LaneId) (reason : HaltReason) :
    s.haltOne l reason =
      (s.setLane l ((s.lane l).halted s.event reason)).offerAll ((s.lane l).haltTold l s.event reason) := by
  unfold State.haltOne Lane.halted Lane.haltTold
  split
  · cases hm : (s.lane l).config.mode
    · exact State.haltPlay_eq ..
    · dsimp only
      rw [State.haltCapture_eq]
      dsimp only
      split <;> rfl
  · simp

/-- Halts of several lanes, as lane updates and their notices in order (R125, R126). -/
theorem State.haltAll_eq (reason : HaltReason) (ls : List LaneId) (s : State) (nd : ls.Nodup) :
    ls.foldl (fun s l => s.haltOne l reason) s =
      (ls.foldl (fun s l => s.setLane l ((s.lane l).halted s.event reason)) s).offerAll
        (ls.flatMap fun l => (s.lane l).haltTold l s.event reason) := by
  have swap : ∀ (ms : List LaneId) (t : State) (ns : List Notice),
      ms.foldl (fun s l => s.setLane l ((s.lane l).halted s.event reason)) (t.offerAll ns) =
        (ms.foldl (fun s l => s.setLane l ((s.lane l).halted s.event reason)) t).offerAll ns := by
    intro ms
    induction ms with
    | nil => exact fun _ _ => rfl
    | cons m ms ih =>
      intro t ns
      rw [List.foldl_cons, State.offerAll_lane, State.offerAll_event, ← State.offerAll_setLane, ih, List.foldl_cons]
  induction ls generalizing s with
  | nil => rfl
  | cons a ls ih =>
    obtain ⟨ha, hn⟩ := List.nodup_cons.mp nd
    have told : (ls.flatMap fun l => ((s.haltOne a reason).lane l).haltTold l (s.haltOne a reason).event reason) =
        ls.flatMap fun l => (s.lane l).haltTold l s.event reason := by
      rw [(State.LaneWork.haltOne s a reason).event_eq]
      refine List.flatMap_congr fun m hm => ?_
      rw [State.haltOne_lane_other s a m reason fun e => ha (e ▸ hm)]
    rw [List.foldl_cons, ih _ hn, told, State.haltOne_eq, swap, ← State.offerAll_append]
    rfl

/-- A member of a group is a lane with that group in its group field (R118). -/
theorem State.mem_members (s : State) (g : GroupName) (l : LaneId) :
    l ∈ s.members g ↔ (s.lane l).config.group = some g := by
  unfold State.members laneOrder
  cases l <;> simp

/-- Halting some lanes one by one: each lane that is reached and meets the condition is halted, every other stays. -/
theorem State.haltSome_lane (P : LaneId → Lane → Bool) (reason : HaltReason) (ls : List LaneId) (s : State)
    (hn : ls.Nodup) (l : LaneId) :
    (ls.foldl (fun s m => if P m (s.lane m) then s.haltOne m reason else s) s).lane l =
      if l ∈ ls ∧ P l (s.lane l) = true then (s.lane l).halted s.event reason else s.lane l := by
  induction ls generalizing s with
  | nil => simp
  | cons a ls ih =>
    have hn' := List.nodup_cons.mp hn
    simp only [List.foldl_cons]
    by_cases hc : P a (s.lane a) = true
    · rw [if_pos hc, ih _ hn'.2, (State.LaneWork.haltOne s a reason).event_eq]
      by_cases hl : l = a
      · subst hl
        simp [hn'.1, hc]
      · simp [hl]
    · rw [if_neg hc, ih s hn'.2]
      by_cases hl : l = a
      · subst hl
        simp [hn'.1, hc]
      · simp [hl]

/-- Halting some lanes one by one is halting those that meet the condition at the start: a halt changes no other lane. -/
theorem State.haltSome_filter (P : LaneId → Lane → Bool) (reason : HaltReason) (ls : List LaneId) (s : State)
    (hn : ls.Nodup) :
    ls.foldl (fun s m => if P m (s.lane m) then s.haltOne m reason else s) s =
      (ls.filter fun m => P m (s.lane m)).foldl (fun s m => s.haltOne m reason) s := by
  induction ls generalizing s with
  | nil => rfl
  | cons a ls ih =>
    obtain ⟨ha, hn'⟩ := List.nodup_cons.mp hn
    rw [List.foldl_cons]
    by_cases hc : P a (s.lane a) = true
    · rw [if_pos hc, ih _ hn', List.filter_cons, if_pos hc, List.foldl_cons]
      congr 1
      refine List.filter_congr fun m hm => ?_
      rw [State.haltOne_lane_other s a m reason fun e => ha (e ▸ hm)]
    · rw [if_neg hc, ih s hn', List.filter_cons, if_neg hc]

/-- Halts of several lanes change the lanes and queue their notices in order, and change nothing else (R125, R126). -/
theorem State.haltAll_frame (reason : HaltReason) (ls : List LaneId) (s : State) (nd : ls.Nodup) :
    ls.foldl (fun s l => s.haltOne l reason) s =
      State.offerAll { s with lanes := (ls.foldl (fun s l => s.haltOne l reason) s).lanes }
        (ls.flatMap fun l => (s.lane l).haltTold l s.event reason) := by
  have work : ∀ (ms : List LaneId) (t : State),
      ms.foldl (fun s l => s.setLane l ((s.lane l).halted s.event reason)) t =
        { t with lanes := (ms.foldl (fun s l => s.setLane l ((s.lane l).halted s.event reason)) t).lanes } := by
    intro ms
    induction ms with
    | nil => exact fun _ => rfl
    | cons m ms ih => exact fun t => (ih _).trans rfl
  rw [State.haltAll_eq reason ls s nd, State.offerAll_lanes, ← work ls s]

/-- What halt-together does after the originating member's halt: the other RUNNING or STALLED members halt, their notices in
ascending lane order (R125). -/
theorem State.haltOthers_eq (s : State) (l : LaneId) (g : GroupName) :
    s.haltOthers l g = State.offerAll { s with lanes := (s.haltOthers l g).lanes }
      ((laneOrder.filter fun m =>
          decide (m ≠ l ∧ (s.lane m).config.group = some g ∧ (s.lane m).state.runsOrStalls = true)).flatMap
        fun m => (s.lane m).haltTold m s.event .group) := by
  have all : s.haltOthers l g = (laneOrder.filter fun m =>
      decide (m ≠ l ∧ (s.lane m).config.group = some g ∧ (s.lane m).state.runsOrStalls = true)).foldl
        (fun s m => s.haltOne m .group) s := by
    rw [← State.haltSome_filter
      (fun m ln => decide (m ≠ l ∧ ln.config.group = some g ∧ ln.state.runsOrStalls = true)) .group laneOrder s (by decide)]
    simp only [decide_eq_true_eq]
    rfl
  rw [all]
  exact State.haltAll_frame .group _ s (List.Nodup.filter _ (by decide))

/-- The lanes after halt-together (R125). -/
theorem State.haltOthers_lane (s : State) (l m : LaneId) (g : GroupName) :
    (s.haltOthers l g).lane m =
      if m ≠ l ∧ (s.lane m).config.group = some g ∧ (s.lane m).state.runsOrStalls = true then
        (s.lane m).halted s.event .group
      else s.lane m := by
  have key := State.haltSome_lane
    (fun m ln => decide (m ≠ l ∧ ln.config.group = some g ∧ ln.state.runsOrStalls = true)) .group laneOrder s (by decide) m
  have mem : m ∈ laneOrder := by cases m <;> decide
  simpa [mem, State.haltOthers] using key

/-- A halt reaches its own lane, and, where it sets off halt-together, the other RUNNING or STALLED members (R125). -/
theorem State.halt_lane (s : State) (l m : LaneId) (reason : HaltReason) :
    (s.halt l reason).lane m =
      if m = l then (s.lane l).halted s.event reason
      else if (∃ g, s.cascades l reason = some g ∧ (s.lane m).config.group = some g) ∧ (s.lane m).state.runsOrStalls = true
        then (s.lane m).halted s.event .group
      else s.lane m := by
  unfold State.halt
  cases hc : s.cascades l reason with
  | none =>
    by_cases hm : m = l
    · subst hm
      simp
    · simp [hm]
  | some g =>
    show ((s.haltOne l reason).haltOthers l g).lane m = _
    rw [State.haltOthers_lane, (State.LaneWork.haltOne s l reason).event_eq]
    by_cases hm : m = l
    · subst hm
      simp
    · simp [hm]

/-! ## Settling -/

/-- `t` is `s` but for the lanes, the notice queue, the LANE STALLs owed, the open request table and the reply list. -/
def State.LaneAndLinkWork (s t : State) : Prop :=
  t = { s with
    lanes := t.lanes, notices := t.notices, stalls := t.stalls, link := { s.link with table := t.link.table }
    tx := { s.tx with replies := t.tx.replies } }

theorem State.LaneWork.andLink {s t : State} (h : s.LaneWork t) : s.LaneAndLinkWork t := by
  unfold State.LaneWork at h
  unfold State.LaneAndLinkWork
  rw [h]

theorem State.LaneAndLinkWork.refl (s : State) : s.LaneAndLinkWork s := rfl

theorem State.LaneAndLinkWork.trans {s t u : State} (h : s.LaneAndLinkWork t) (k : t.LaneAndLinkWork u) :
    s.LaneAndLinkWork u := by
  unfold State.LaneAndLinkWork at *
  rw [k, h]

theorem State.LaneAndLinkWork.answer (s : State) (tag : Byte) (st : Status) (fields : ReplyFields) :
    s.LaneAndLinkWork (s.answer tag st fields) := by
  unfold State.answer
  split <;> rfl

theorem State.LaneAndLinkWork.endLaneReset (s : State) (l : LaneId) : s.LaneAndLinkWork (s.endLaneReset l) := by
  unfold State.endLaneReset
  split
  · exact State.LaneAndLinkWork.refl s
  · dsimp only
    split
    · exact (State.LaneWork.mapLane s l _).andLink.trans (State.LaneAndLinkWork.answer _ _ _ _)
    · exact (State.LaneWork.mapLane s l _).andLink

/-- Settling a lane changes lanes, notices, owed stalls, the open request table and the reply list alone. -/
theorem State.LaneAndLinkWork.settleLane (s : State) (l : LaneId) (id : Byte) :
    s.LaneAndLinkWork (s.settleLane l id) := by
  refine (State.LaneWork.mapLane s l (Lane.stage s.event)).andLink.trans ?_
  unfold State.settleLane
  generalize s.mapLane l (Lane.stage s.event) = t
  dsimp only
  split
  · split
    · exact (State.LaneWork.setLane t l _).andLink
    · exact State.LaneAndLinkWork.refl t
  · split
    · exact ((State.LaneWork.excuseUnderrun t l).trans (State.LaneWork.actDry _ l id)).andLink
    · exact State.LaneAndLinkWork.refl t
  · split
    · exact (State.LaneWork.setLane t l _).andLink
    · split
      · exact (State.LaneWork.actDry t l id).andLink
      · exact State.LaneAndLinkWork.refl t
  · exact (State.LaneWork.leaveEnding t l).andLink
  · exact State.LaneAndLinkWork.endLaneReset t l
  · exact State.LaneAndLinkWork.refl t

theorem State.LaneAndLinkWork.resetn_eq {s t : State} (h : s.LaneAndLinkWork t) : t.resetn = s.resetn := by
  rw [h]

theorem State.LaneAndLinkWork.trigLevel_eq {s t : State} (h : s.LaneAndLinkWork t) : t.trigLevel = s.trigLevel := by
  rw [h]

theorem State.LaneAndLinkWork.arrayState_eq {s t : State} (h : s.LaneAndLinkWork t) : t.arrayState = s.arrayState := by
  rw [h]

theorem State.LaneAndLinkWork.array_eq {s t : State} (h : s.LaneAndLinkWork t) : t.array = s.array := by
  rw [h]

theorem State.LaneAndLinkWork.aliases_eq {s t : State} (h : s.LaneAndLinkWork t) : t.aliases = s.aliases := by
  rw [h]

theorem State.LaneAndLinkWork.port_eq {s t : State} (h : s.LaneAndLinkWork t) : t.port = s.port := by
  rw [h]

theorem State.LaneAndLinkWork.hostWaiting_eq {s t : State} (h : s.LaneAndLinkWork t) : t.hostWaiting = s.hostWaiting := by
  rw [h]

theorem State.LaneAndLinkWork.hostClaimAge_eq {s t : State} (h : s.LaneAndLinkWork t) : t.hostClaimAge = s.hostClaimAge := by
  rw [h]

theorem State.LaneAndLinkWork.groups_eq {s t : State} (h : s.LaneAndLinkWork t) : t.groups = s.groups := by
  rw [h]

theorem State.LaneAndLinkWork.event_eq {s t : State} (h : s.LaneAndLinkWork t) : t.event = s.event := by
  rw [h]

theorem State.LaneAndLinkWork.now_eq {s t : State} (h : s.LaneAndLinkWork t) : t.now = s.now := by
  rw [h]

theorem State.LaneAndLinkWork.pending_eq {s t : State} (h : s.LaneAndLinkWork t) : t.pending = s.pending := by
  rw [h]

theorem State.LaneAndLinkWork.deviceReset_eq {s t : State} (h : s.LaneAndLinkWork t) :
    t.link.deviceReset = s.link.deviceReset := by
  rw [h]

/-! ## Staging (R9, R10) -/

/-- A move of the head cue changes slots and queue alone. -/
theorem Lane.stageHead_frame (age : Nat) (ln : Lane) :
    ln.stageHead age =
      { ln with slotA := (ln.stageHead age).slotA, slotB := (ln.stageHead age).slotB
                queue := (ln.stageHead age).queue } := by
  unfold Lane.stageHead
  split
  · split
    · next n _ _ => cases n <;> rfl
    · rfl
  · rfl

/-- Staging changes slots and queue alone. -/
theorem Lane.stage_frame (age : Nat) (ln : Lane) :
    ln.stage age =
      { ln with slotA := (ln.stage age).slotA, slotB := (ln.stage age).slotB, queue := (ln.stage age).queue } := by
  unfold Lane.stage
  rw [Lane.stageHead_frame age (ln.stageHead age), Lane.stageHead_frame age ln]

@[simp] theorem Lane.stage_state (age : Nat) (ln : Lane) : (ln.stage age).state = ln.state := by
  rw [Lane.stage_frame]

@[simp] theorem Lane.stage_config (age : Nat) (ln : Lane) : (ln.stage age).config = ln.config := by
  rw [Lane.stage_frame]

@[simp] theorem Lane.stage_lastCue (age : Nat) (ln : Lane) : (ln.stage age).lastCue = ln.lastCue := by
  rw [Lane.stage_frame]

@[simp] theorem Lane.stage_stopPending (age : Nat) (ln : Lane) : (ln.stage age).stopPending = ln.stopPending := by
  rw [Lane.stage_frame]

@[simp] theorem Lane.stage_awaitingFirstBeat (age : Nat) (ln : Lane) :
    (ln.stage age).awaitingFirstBeat = ln.awaitingFirstBeat := by
  rw [Lane.stage_frame]

/-- Outside the staging states nothing moves. -/
theorem Lane.stage_stopped (age : Nat) (ln : Lane) (h : ln.state.stages = false) : ln.stage age = ln := by
  have one : ln.stageHead age = ln := by simp [Lane.stageHead, h]
  rw [Lane.stage, one, one]

/-- Staging moves cues and drops none: the held cues are the same but for their order. -/
theorem Lane.stageHead_held (age : Nat) (ln : Lane) : (ln.stageHead age).held.Perm ln.held := by
  have hE : ∀ x : Slot, x.isEmpty = true → x.cue? = none := by intro x; cases x <;> simp [Slot.isEmpty, Slot.cue?]
  have hS : ∀ c : HeldCue, (ln.stagedSlot c age).cue? = some c := by
    intro c
    unfold Lane.stagedSlot
    split <;> rfl
  unfold Lane.stageHead
  split
  · split
    · next c q n hq hn =>
      unfold Lane.emptySlot at hn
      split at hn
      · next hA =>
        cases hn
        simp only [Lane.held, Lane.slotCues, Lane.setSlot, hS, hE _ hA, hq, Option.toList_none, Option.toList_some, List.nil_append]
        simpa using (List.perm_middle (a := c) (l₁ := ln.slotB.cue?.toList) (l₂ := q)).symm
      · split at hn
        · next hB =>
          cases hn
          simp only [Lane.held, Lane.slotCues, Lane.setSlot, hS, hE _ hB, hq, Option.toList_none, Option.toList_some, List.append_nil]
          simp
        · cases hn
    · exact List.Perm.refl _
  · exact List.Perm.refl _

theorem Lane.stage_held (age : Nat) (ln : Lane) : (ln.stage age).held.Perm ln.held :=
  (Lane.stageHead_held age (ln.stageHead age)).trans (Lane.stageHead_held age ln)

@[simp] theorem Lane.stage_heldCount (age : Nat) (ln : Lane) : (ln.stage age).heldCount = ln.heldCount :=
  (Lane.stage_held age ln).length_eq

end Sys2Proof.Machine
end

