-- ==== Sys2Proof/Laws/Beats.lean ====
section
/-! SUPPORT. What a beat leaves alone: each of its operations changes lanes, notices and owed LANE STALLs, and nothing
else (R28, R37, R91). -/

namespace Sys2Proof.Machine

open Sys2Proof

/-! ## One more change of lanes, notices or owed stalls -/

theorem State.LaneWork.thenMap {s t : State} (h : s.LaneWork t) (l : LaneId) (f : Lane → Lane) :
    s.LaneWork (t.mapLane l f) :=
  h.trans (State.LaneWork.mapLane t l f)

theorem State.LaneWork.thenOffer {s t : State} (h : s.LaneWork t) (n : Notice) : s.LaneWork (t.offer n) :=
  h.trans (State.LaneWork.offer t n)

theorem State.LaneWork.thenOwe {s t : State} (h : s.LaneWork t) (l : LaneId) (id : Byte) (cause : StallCause) :
    s.LaneWork (t.oweStall l id cause) :=
  h.trans (State.LaneWork.oweStall t l id cause)

theorem State.LaneWork.thenRetire {s t : State} (h : s.LaneWork t) (l : LaneId) (c : HeldCue) (o : CueOutcome) :
    s.LaneWork (t.retire l c o) :=
  h.trans (State.LaneWork.retire t l c o)

theorem State.LaneWork.thenHalt {s t : State} (h : s.LaneWork t) (l : LaneId) (reason : HaltReason) :
    s.LaneWork (t.halt l reason) :=
  h.trans (State.LaneWork.halt t l reason)

theorem State.LaneWork.thenActDry {s t : State} (h : s.LaneWork t) (l : LaneId) (id : Byte) :
    s.LaneWork (t.actDry l id) :=
  h.trans (State.LaneWork.actDry t l id)

/-! ## Play lanes (R37 to R41, R67 to R76) -/

theorem State.LaneWork.reportUnderrun {s t : State} (h : s.LaneWork t) (l : LaneId) (spanEnded lastRetired : Byte) :
    s.LaneWork (t.reportUnderrun l spanEnded lastRetired) := by
  unfold State.reportUnderrun
  split
  · exact h.thenActDry l lastRetired
  · exact h.thenOwe l spanEnded _

theorem State.LaneWork.underrunHold {s t : State} (h : s.LaneWork t) (l : LaneId) (c : HeldCue) :
    s.LaneWork (t.underrunHold l c) :=
  (h.thenMap l _).reportUnderrun l _ _

theorem State.LaneWork.underrunSkip {s t : State} (h : s.LaneWork t) (l : LaneId) (n : SlotName) (c : HeldCue) :
    s.LaneWork (t.underrunSkip l n c) := by
  unfold State.underrunSkip
  split
  · exact (((h.thenMap l _).thenRetire l _ _).thenMap l _).reportUnderrun l _ _
  · exact (h.thenMap l _).reportUnderrun l _ _

theorem State.LaneWork.underrun {s t : State} (h : s.LaneWork t) (l : LaneId) (n : SlotName) (c : HeldCue) :
    s.LaneWork (t.underrun l n c) := by
  unfold State.underrun
  split
  · exact h.thenHalt l .underrun
  · exact h.underrunSkip l n c
  · exact h.underrunHold l c
  · exact h.underrunHold l c

theorem State.LaneWork.finishCue {s t : State} (h : s.LaneWork t) (l : LaneId) (n : SlotName) (c : HeldCue) :
    s.LaneWork (t.finishCue l n c) :=
  (h.thenMap l _).thenRetire l c .played

theorem State.LaneWork.switchTo {s t : State} (h : s.LaneWork t) (l : LaneId) (n : SlotName) :
    s.LaneWork (t.switchTo l n) :=
  h.thenMap l _

theorem State.LaneWork.spanEnd {s t : State} (h : s.LaneWork t) (l : LaneId) (n : SlotName) (c : HeldCue) :
    s.LaneWork (t.spanEnd l n c) := by
  have hf := h.finishCue l n c
  unfold State.spanEnd
  dsimp only
  split
  · exact hf.thenHalt l .ended
  · split
    · exact hf.switchTo l n.other
    · split
      · exact hf.underrun l n c
      · exact hf.thenActDry l _

theorem State.LaneWork.endContinuous {s t : State} (h : s.LaneWork t) (l : LaneId) (n : SlotName) (c : HeldCue)
    (restart : Slot) : s.LaneWork (t.endContinuous l n c restart) := by
  have hf := h.finishCue l n c
  unfold State.endContinuous
  dsimp only
  split
  · split
    · exact hf.thenHalt l .ended
    · exact hf.switchTo l n.other
  · exact h.thenMap l _

theorem State.LaneWork.presentWord {s t : State} (h : s.LaneWork t) (l : LaneId) (n : SlotName) (c : HeldCue)
    (words : List Byte) (res : Resolution) (p : Progress) : s.LaneWork (t.presentWord l n c words res p) := by
  unfold State.presentWord
  dsimp only
  generalize hu : (if (!p.begun && c.record.notifyStart) = true then _ else _ : State) = u
  have shown : s.LaneWork u := by
    rw [← hu]
    split
    · exact (h.thenMap l _).thenOffer _
    · exact h.thenMap l _
  split
  · exact shown.thenMap l _
  · split
    · exact shown.thenHalt l .request
    · split
      · split
        · exact shown.thenMap l _
        · exact shown.spanEnd l n c
      · exact shown.endContinuous l n c _

theorem State.LaneWork.playBeat {s t : State} (h : s.LaneWork t) (l : LaneId) : s.LaneWork (t.playBeat l) := by
  unfold State.playBeat
  split
  · exact h
  · split
    · exact h.presentWord l _ _ _ _ _
    · exact h

/-! ## Capture lanes (R91 to R97) -/

theorem State.LaneWork.overrun {s t : State} (h : s.LaneWork t) (l : LaneId) (c : HeldCue) :
    s.LaneWork (t.overrun l c) := by
  unfold State.overrun
  split
  · exact h.thenHalt l .overrun
  · exact (h.thenMap l _).thenOwe l c.record.id _

theorem State.LaneWork.captureSpanEnd {s t : State} (h : s.LaneWork t) (l : LaneId) (n : SlotName) (c : HeldCue)
    (words : List Byte) : s.LaneWork (t.captureSpanEnd l n c words) := by
  have placed := h.thenMap l fun ln =>
    ln.setSlot n (.commitWait c words { first := c.record.tap, last := c.record.last } t.event)
  unfold State.captureSpanEnd
  dsimp only
  split
  · exact placed.thenHalt l .request
  · split
    · exact placed.thenHalt l .ended
    · split
      · exact placed.thenMap l _
      · split
        · exact placed.overrun l c
        · split
          · exact placed.thenMap l _
          · exact placed.thenActDry l _

theorem State.LaneWork.captureWord {s t : State} (h : s.LaneWork t) (l : LaneId) (w : Byte) (n : SlotName) (c : HeldCue)
    (words : List Byte) (p : Progress) : s.LaneWork (t.captureWord l w n c words p) := by
  unfold State.captureWord
  dsimp only
  generalize hu : (if (!p.begun && c.record.notifyStart) = true then _ else _ : State) = u
  have taken : s.LaneWork u := by
    rw [← hu]
    split
    · exact (h.thenMap l _).thenOffer _
    · exact h.thenMap l _
  split
  · exact taken.thenMap l _
  · exact taken.captureSpanEnd l n c _

theorem State.LaneWork.captureBeat {s t : State} (h : s.LaneWork t) (l : LaneId) (ld : Byte) (lqv : Bool) :
    s.LaneWork (t.captureBeat l ld lqv) := by
  have marked := h.thenMap l fun ln => { ln.drivesMark false with awaitingFirstBeat := false }
  unfold State.captureBeat
  dsimp only
  split
  · split
    · exact marked
    · split
      · exact marked.captureWord l ld _ _ _ _
      · exact marked
  · exact marked

/-! ## The beat (R28) -/

theorem State.LaneWork.runningBeat {s t : State} (h : s.LaneWork t) (l : LaneId) (ld : Byte) (lqv : Bool) :
    s.LaneWork (t.runningBeat l ld lqv) := by
  unfold State.runningBeat
  split
  · exact h.playBeat l
  · exact h.captureBeat l ld lqv

/-- A beat changes lanes, notices and owed stalls alone. -/
theorem State.LaneWork.beat (s : State) (l : LaneId) (ld : Byte) (lqv : Bool) : s.LaneWork (s.beat l ld lqv) := by
  have h := State.LaneWork.refl s
  unfold State.beat
  split
  · unfold State.readyBeat
    split
    · exact (h.thenMap l _).runningBeat l ld lqv
    · exact h
  · exact h.runningBeat l ld lqv
  · split
    · unfold State.stalledPlayBeat
      split
      · exact (h.thenMap l _).playBeat l
      · split
        · exact h.thenMap l _
        · exact h
    · unfold State.stalledCaptureBeat
      split
      · exact h.thenMap l _
      · exact h
  all_goals exact h

end Sys2Proof.Machine
end

