-- ==== Sys2Proof/Laws/Groups.lean ====
section
/-! SUPPORT. What the fire of a group, a GROUP STOP and the re-evaluation of the groups do, lane by lane and group by group
(R120, R123 to R126). -/

namespace Sys2Proof.Machine

open Sys2Proof

/-- One change made to several lanes, each named once: those lanes have it, the others stay. -/
theorem State.mapLanes_lane (f : Lane → Lane) (ls : List LaneId) (s : State) (hn : ls.Nodup) (l : LaneId) :
    (ls.foldl (fun s l => s.mapLane l f) s).lane l = if l ∈ ls then f (s.lane l) else s.lane l := by
  induction ls generalizing s with
  | nil => simp
  | cons a ls ih =>
    have hn' := List.nodup_cons.mp hn
    rw [List.foldl_cons, ih (s.mapLane a f) hn'.2]
    by_cases hl : l = a
    · subst hl
      simp [hn'.1]
    · simp [hl, State.mapLane]

/-- The lanes a fire starts are the READY members (R123). -/
theorem State.mem_readyMembers (s : State) (g : GroupName) (l : LaneId) :
    l ∈ s.readyMembers g ↔ (s.lane l).config.group = some g ∧ (s.lane l).state = .ready := by
  simp [State.readyMembers, State.mem_members]

theorem State.readyMembers_nodup (s : State) (g : GroupName) : (s.readyMembers g).Nodup := by
  unfold State.readyMembers State.members
  exact List.Nodup.filter _ (List.Nodup.filter _ (by decide))

/-- The moment of the fire is one and the same for every member. -/
theorem State.fire_now (s : State) (ls : List LaneId) :
    ls.foldl (fun s l => s.mapLane l (Lane.fireAt s.now)) s =
      ls.foldl (fun u l => u.mapLane l (Lane.fireAt s.now)) s := by
  have key : ∀ u : State, u.now = s.now →
      ls.foldl (fun s l => s.mapLane l (Lane.fireAt s.now)) u =
        ls.foldl (fun u l => u.mapLane l (Lane.fireAt s.now)) u := by
    induction ls with
    | nil => exact fun _ _ => rfl
    | cons a ls ih =>
      intro u hu
      rw [List.foldl_cons, List.foldl_cons, ih _ (by simpa [State.mapLane] using hu), hu]
  exact key s rfl

/-- The fire starts the READY members and no other lane (R123). -/
theorem State.fire_lane (s : State) (g : GroupName) (l : LaneId) :
    (s.fire g).lane l =
      if (s.lane l).config.group = some g ∧ (s.lane l).state = .ready then (s.lane l).fireAt s.now else s.lane l := by
  unfold State.fire
  dsimp only
  rw [State.fire_now, State.offer_lane, State.lane_setGroup,
    State.mapLanes_lane (Lane.fireAt s.now) _ s (State.readyMembers_nodup s g)]
  simp [State.mem_readyMembers]

/-- Beside the lanes, the fire changes the group's state to FIRED and queues GROUP FIRED (R123). -/
theorem State.fire_frame (s : State) (g : GroupName) :
    s.fire g =
      { s with
        lanes := (s.fire g).lanes
        groups := (s.setGroup g { s.group g with state := .fired }).groups
        notices := (s.offer (.groupFired g (s.readyMembers g))).notices } := by
  have work : ∀ ls : List LaneId, ls.foldl (fun s l => s.mapLane l (Lane.fireAt s.now)) s =
      { s with lanes := (ls.foldl (fun s l => s.mapLane l (Lane.fireAt s.now)) s).lanes } := by
    intro ls
    induction ls generalizing s with
    | nil => rfl
    | cons a ls ih => exact (ih (s.mapLane a _)).trans rfl
  unfold State.fire
  dsimp only
  rw [work]
  unfold State.offer State.setGroup State.group
  dsimp only
  split <;> rfl

/-- GROUP STOP halts every member, alone, and touches no other lane (R126). -/
theorem State.stopMembers_lane (s : State) (g : GroupName) (l : LaneId) :
    (s.stopMembers g).lane l =
      if (s.lane l).config.group = some g then (s.lane l).halted s.event .request else s.lane l := by
  have key := State.haltSome_lane (fun _ _ => true) .request (s.members g) s
    (by unfold State.members; exact List.Nodup.filter _ (by decide)) l
  simpa [State.stopMembers, State.mem_members] using key

/-- The re-evaluation of the groups touches nothing but the groups (R120, R124). -/
theorem State.regroup_frame (s : State) : s.regroup = { s with groups := s.regroup.groups } := rfl

@[simp] theorem State.regroup_lane (s : State) (l : LaneId) : s.regroup.lane l = s.lane l := rfl

end Sys2Proof.Machine
end

