-- ==== Sys2Proof/Laws/Held.lean ====
section
/-! SUPPORT. What the lane units' shared operations do to the held cues: they move them and let them go, and add none. -/

namespace Sys2Proof.Machine

open Sys2Proof

/-! ## Slots -/

/-- A halt keeps the cue of a slot in the slot, returns it, or lets it go. -/
theorem Slot.afterHalt_cue (x : Slot) (age : Nat) :
    (x.returned?.toList ++ (x.afterHalt age).cue?.toList).Sublist x.cue?.toList := by
  cases x with
  | playing c w r p => cases h : p.begun <;> simp [Slot.returned?, Slot.afterHalt, Slot.cue?, h]
  | capturing c w p => cases h : p.begun <;> simp [Slot.returned?, Slot.afterHalt, Slot.cue?, h]
  | _ => simp [Slot.returned?, Slot.afterHalt, Slot.cue?]

/-- A slot that a reset has taken holds no cue (R43). -/
@[simp] theorem Slot.cue_afterReset (x : Slot) : x.afterReset.cue? = none := by
  cases x <;> rfl

/-- A grant keeps the slot's cue (R50). -/
@[simp] theorem Slot.cue_granted (x : Slot) : x.granted.cue? = x.cue? := by
  cases x <;> rfl

/-- The returned cues are those of the two slots. -/
theorem Lane.returned_perm (ln : Lane) :
    ln.returned.Perm (ln.slotA.returned?.toList ++ ln.slotB.returned?.toList) := by
  unfold Lane.returned
  split
  · next x y hx hy =>
    rw [hx, hy]
    split
    · exact List.Perm.refl _
    · exact List.Perm.swap x y []
  · next x hx hy => simp [hx, hy]
  · next y hx hy => simp [hx, hy]
  · next hx hy => simp [hx, hy]

/-! ## Lanes: `Subperm` says that a lane holds some of the cues, in any order -/

/-- Staging holds on to every cue. -/
theorem Lane.held_stage (age : Nat) (ln : Lane) : (ln.stage age).held.Subperm ln.held :=
  (Lane.stage_held age ln).subperm

theorem Lane.held_stageHead (age : Nat) (ln : Lane) : (ln.stageHead age).held.Subperm ln.held :=
  (Lane.stageHead_held age ln).subperm

/-- A stop adds no cue. -/
theorem Lane.held_stopIn (ln : Lane) (st : LaneState) (age : Nat) : (ln.stopIn st age).held.Subperm ln.held := by
  have ha := Slot.afterHalt_cue ln.slotA age
  have hb := Slot.afterHalt_cue ln.slotB age
  have hr := Lane.returned_perm ln
  have h1 : (ln.stopIn st age).held.Perm
      (((ln.slotA.returned?.toList ++ (ln.slotA.afterHalt age).cue?.toList) ++
        (ln.slotB.returned?.toList ++ (ln.slotB.afterHalt age).cue?.toList)) ++ ln.queue) := by
    simp only [Lane.held, Lane.slotCues, Lane.stopIn]
    rw [← List.append_assoc]
    refine List.Perm.append_right _ ?_
    refine (List.Perm.append_left _ hr).trans ?_
    rw [List.perm_iff_count]
    intro c
    simp only [List.count_append]
    omega
  refine h1.subperm.trans ?_
  exact ((ha.append hb).append (List.Sublist.refl ln.queue)).subperm

/-- A halt adds no cue. -/
theorem Lane.held_halted (ln : Lane) (age : Nat) (reason : HaltReason) :
    (ln.halted age reason).held.Subperm ln.held := by
  unfold Lane.halted
  split
  · split
    · exact Lane.held_stopIn ln _ age
    · split
      · exact Lane.held_stopIn ln _ age
      · exact Lane.held_stopIn ln _ age
  · exact List.Subperm.refl _

/-- A lane that has ended its reset holds nothing (R44). -/
@[simp] theorem Lane.held_endReset (ln : Lane) : ln.endReset.held = [] := rfl

/-- A lane that enters its reset holds nothing (R43). -/
@[simp] theorem Lane.held_enterReset (ln : Lane) : ln.enterReset.held = [] := by
  simp [Lane.held, Lane.slotCues, Lane.enterReset]

/-- A slot that becomes ACTIVE keeps its cue. -/
@[simp] theorem Lane.held_activate (ln : Lane) (n : SlotName) : (ln.activate n).held = ln.held := by
  unfold Lane.activate
  split
  · next h => cases n <;> simp_all [Lane.held, Lane.slotCues, Lane.setSlot, Lane.slot, Slot.cue?]
  · next h => cases n <;> simp_all [Lane.held, Lane.slotCues, Lane.setSlot, Lane.slot, Slot.cue?]
  · rfl

@[simp] theorem Lane.held_run (ln : Lane) (n : SlotName) : (ln.run n).held = ln.held :=
  Lane.held_activate ln n

/-- A slot changed with its cue kept. -/
theorem Lane.held_setSlot (ln : Lane) (n : SlotName) (x : Slot) (h : x.cue? = (ln.slot n).cue?) :
    (ln.setSlot n x).held = ln.held := by
  cases n <;> simp_all [Lane.held, Lane.slotCues, Lane.setSlot, Lane.slot]

/-- A slot emptied of its cue. -/
theorem Lane.held_setSlot_none (ln : Lane) (n : SlotName) (x : Slot) (h : x.cue? = none) :
    (ln.setSlot n x).held.Sublist ln.held := by
  cases n <;> simp [Lane.held, Lane.slotCues, Lane.setSlot, h]

/-- A slot emptied of its cue: one cue fewer. -/
theorem Lane.heldCount_setSlot_none (ln : Lane) (n : SlotName) (x : Slot) (h : x.cue? = none)
    (hc : (ln.slot n).cue?.isSome = true) : (ln.setSlot n x).heldCount + 1 = ln.heldCount := by
  obtain ⟨c, hc⟩ := Option.isSome_iff_exists.mp hc
  cases n
  · simp_all [Lane.heldCount, Lane.held, Lane.slotCues, Lane.setSlot, Lane.slot]
  · simp_all [Lane.heldCount, Lane.held, Lane.slotCues, Lane.setSlot, Lane.slot]
    omega

/-! ## The part -/

/-- Each lane of `t` holds some of the cues that the same lane of `s` holds. -/
def State.HoldsNoMore (s t : State) : Prop := ∀ m, (t.lane m).held.Subperm (s.lane m).held

theorem State.HoldsNoMore.refl (s : State) : s.HoldsNoMore s := fun _ => List.Subperm.refl _

theorem State.HoldsNoMore.trans {s t u : State} (h : s.HoldsNoMore t) (k : t.HoldsNoMore u) : s.HoldsNoMore u :=
  fun m => (k m).trans (h m)

theorem State.HoldsNoMore.setLane (s : State) (l : LaneId) (x : Lane) (h : x.held.Subperm (s.lane l).held) :
    s.HoldsNoMore (s.setLane l x) := by
  intro m
  by_cases hm : m = l
  · subst hm
    simpa using h
  · rw [State.lane_setLane_other s l m x hm]

theorem State.HoldsNoMore.mapLane (s : State) (l : LaneId) (f : Lane → Lane)
    (h : (f (s.lane l)).held.Subperm (s.lane l).held) : s.HoldsNoMore (s.mapLane l f) :=
  State.HoldsNoMore.setLane s l _ h

theorem State.HoldsNoMore.of_lanes {s t : State} (h : t.lanes = s.lanes) : s.HoldsNoMore t := by
  intro m
  simp only [State.lane, h]
  exact List.Subperm.refl _

theorem State.HoldsNoMore.offer (s : State) (n : Notice) : s.HoldsNoMore (s.offer n) :=
  State.HoldsNoMore.of_lanes (by simp)

theorem State.HoldsNoMore.offerAll (s : State) (ns : List Notice) : s.HoldsNoMore (s.offerAll ns) :=
  State.HoldsNoMore.of_lanes (by simp)

theorem State.HoldsNoMore.retire (s : State) (l : LaneId) (c : HeldCue) (o : CueOutcome) :
    s.HoldsNoMore (s.retire l c o) := by
  rw [State.retire_eq]
  exact State.HoldsNoMore.offerAll s _

@[simp] theorem State.answer_lanes (s : State) (tag : Byte) (st : Status) (fields : ReplyFields) :
    (s.answer tag st fields).lanes = s.lanes := by
  unfold State.answer
  split <;> rfl

theorem State.HoldsNoMore.answer (s : State) (tag : Byte) (st : Status) (fields : ReplyFields) :
    s.HoldsNoMore (s.answer tag st fields) :=
  State.HoldsNoMore.of_lanes (by simp)

theorem State.HoldsNoMore.haltOne (s : State) (l : LaneId) (reason : HaltReason) :
    s.HoldsNoMore (s.haltOne l reason) := by
  intro m
  by_cases hm : m = l
  · subst hm
    rw [State.haltOne_lane_same]
    exact Lane.held_halted _ _ _
  · rw [State.haltOne_lane_other _ _ _ _ hm]

theorem State.HoldsNoMore.halt (s : State) (l : LaneId) (reason : HaltReason) : s.HoldsNoMore (s.halt l reason) := by
  intro m
  rw [State.halt_lane]
  split
  · next h =>
    subst h
    exact Lane.held_halted _ _ _
  · split
    · exact Lane.held_halted _ _ _
    · exact List.Subperm.refl _

theorem State.HoldsNoMore.stallDry (s : State) (l : LaneId) (id : Byte) : s.HoldsNoMore (s.stallDry l id) :=
  State.HoldsNoMore.mapLane s l (fun ln => { ln.quiet with state := .stalled .dry }) (List.Subperm.refl _)

theorem State.HoldsNoMore.actDry (s : State) (l : LaneId) (id : Byte) : s.HoldsNoMore (s.actDry l id) := by
  unfold State.actDry
  split
  · exact State.HoldsNoMore.halt s l .ended
  · exact State.HoldsNoMore.stallDry s l id

theorem State.HoldsNoMore.leaveEnding (s : State) (l : LaneId) : s.HoldsNoMore (s.leaveEnding l) := by
  unfold State.leaveEnding
  dsimp only
  split
  · split
    · exact State.HoldsNoMore.refl s
    · refine State.HoldsNoMore.trans (State.HoldsNoMore.setLane s l _ ?_) (State.HoldsNoMore.offer _ _)
      exact List.Subperm.refl (s.lane l).held
  · exact State.HoldsNoMore.refl s

theorem State.HoldsNoMore.endLaneReset (s : State) (l : LaneId) : s.HoldsNoMore (s.endLaneReset l) := by
  unfold State.endLaneReset
  split
  · exact State.HoldsNoMore.refl s
  · dsimp only
    have h := State.HoldsNoMore.mapLane s l Lane.endReset (by simp)
    split
    · exact h.trans (State.HoldsNoMore.answer _ _ _ _)
    · exact h

/-- A lane that settles, and the lanes that halt with it, hold no cue that they did not hold before. -/
theorem State.HoldsNoMore.settleLane (s : State) (l : LaneId) (id : Byte) : s.HoldsNoMore (s.settleLane l id) := by
  refine (State.HoldsNoMore.mapLane s l (Lane.stage s.event) (Lane.held_stage _ _)).trans ?_
  unfold State.settleLane
  generalize s.mapLane l (Lane.stage s.event) = t
  dsimp only
  split
  · split
    · exact State.HoldsNoMore.setLane t l _ (List.Subperm.refl _)
    · exact State.HoldsNoMore.refl t
  · split
    · exact (State.HoldsNoMore.of_lanes rfl).trans (State.HoldsNoMore.actDry (t.excuseUnderrun l) l id)
    · exact State.HoldsNoMore.refl t
  · split
    · exact State.HoldsNoMore.setLane t l _ (by simp [List.Subperm.refl])
    · split
      · exact State.HoldsNoMore.actDry t l id
      · exact State.HoldsNoMore.refl t
  · exact State.HoldsNoMore.leaveEnding t l
  · exact State.HoldsNoMore.endLaneReset t l
  · exact State.HoldsNoMore.refl t

end Sys2Proof.Machine
end

