-- ==== Sys2Proof/Laws/Link.lean ====
section
/-! SUPPORT. The levels of a line, HTX, and the idle expiry that comes before a character. -/

namespace Sys2Proof.Machine

open Sys2Proof

/-! ## Levels of a line (R139) -/

@[simp] theorem characterLevels_length (b : Byte) (stop : Bool) : (characterLevels b stop).length = 10 := rfl

/-- A start bit, the data bits from the least significant, the stop bit. -/
theorem characterLevels_getElem? (b : Byte) (stop : Bool) (j : Nat) (h : j < 10) :
    (characterLevels b stop)[j]? = some (if j = 0 then false else if j = 9 then stop else b.getLsbD (j - 1)) := by
  interval_cases j <;> rfl

/-- Ten bit times a character (R139, R148). -/
@[simp] theorem Sending.levels_length (f : Sending) : f.levels.length = f.frame.length * 10 := by
  simp [Sending.levels, List.length_flatMap]

/-- Bit time `j` of character `i`. -/
theorem Sending.levels_getElem? (f : Sending) (i j : Nat) (b : Byte) (hi : f.frame[i]? = some b) (hj : j < 10) :
    f.levels[i * 10 + j]? = (characterLevels b true)[j]? := by
  unfold Sending.levels
  generalize f.frame = bytes at hi
  induction bytes generalizing i with
  | nil => simp at hi
  | cons x xs ih =>
    rw [List.flatMap_cons]
    cases i with
    | zero =>
      rw [List.getElem?_cons_zero, Option.some.injEq] at hi
      rw [hi, List.getElem?_append_left (by rw [characterLevels_length]; omega), Nat.zero_mul, Nat.zero_add]
    | succ i =>
      rw [List.getElem?_cons_succ] at hi
      rw [List.getElem?_append_right (by rw [characterLevels_length]; omega), characterLevels_length,
        show (i + 1) * 10 + j - 10 = i * 10 + j by omega]
      exact ih i hi

/-! ## HTX (R139) -/

theorem LinkRate.bitNs_pos (r : LinkRate) : 0 < r.bitNs := by cases r <;> decide

@[simp] theorem State.htx_of_low (s : State) (h : s.resetn = false) : s.htx = true := by
  unfold State.htx; rw [h]

@[simp] theorem State.htx_of_free (s : State) (h : s.tx.sending = none) : s.htx = true := by
  unfold State.htx; rw [h]; cases s.resetn <;> rfl

/-- While a frame is sent HTX has the level of the bit time that is running. -/
theorem State.htx_of_sending (s : State) (f : Sending) (hr : s.resetn = true) (hs : s.tx.sending = some f) :
    s.htx = f.levels.getD ((s.now - f.startedAt) / s.link.rate.bitNs) true := by
  unfold State.htx; rw [hr, hs]

/-! ## Discards and the idle expiry (R142) -/

/-- All a discard does: its counter, the LINK ERROR where one may be offered, and the receiver in HUNTING. -/
theorem State.discard_eq (s : State) (kind : LinkErrorKind) (blocked : Bool) :
    s.discard kind blocked = { s with
      notices := if s.notices.holdsLinkError = true ∨ s.link.deviceReset ≠ none then s.notices
        else s.notices.join (.linkError kind)
      link := { s.link with
        crcErrors := if kind = .crc then satInc s.link.crcErrors else s.link.crcErrors
        framingErrors := if kind = .framing then satInc s.link.framingErrors else s.link.framingErrors
        oversizeErrors := if kind = .oversize then satInc s.link.oversizeErrors else s.link.oversizeErrors
        receiver := { Receiver.hunting with lineBlocked := blocked } } } := by
  unfold State.discard State.offerLinkError State.hunt State.offer
  cases kind <;> cases hd : s.link.deviceReset <;> cases s.notices.holdsLinkError <;>
    simp [Link.countDiscard, hd]

theorem State.idleOver_iff (s : State) : s.idleOver = true ↔
    s.link.receiver.state ≠ .hunting ∧ s.link.receiver.lastStop + s.link.rate.idleNs ≤ s.now := by
  unfold State.idleOver; rw [Bool.and_eq_true, decide_eq_true_iff, decide_eq_true_iff]

theorem State.expireBefore_of_hunting (s : State) (highNs : Nat) (h : s.link.receiver.state = .hunting) :
    s.expireBefore highNs = s := if_neg fun k => k.1 h

theorem State.expireBefore_of_inTime (s : State) (highNs : Nat) (h : highNs ≤ s.link.rate.idleNs) :
    s.expireBefore highNs = s := if_neg fun k => Nat.not_lt.mpr h k.2

theorem State.expireBefore_of_late (s : State) (highNs : Nat) (h : s.link.receiver.state ≠ .hunting)
    (late : s.link.rate.idleNs < highNs) : s.expireBefore highNs = s.discard .framing false := if_pos ⟨h, late⟩

/-- All it can do: nothing, or a FRAMING discard. -/
theorem State.expireBefore_cases (s : State) (highNs : Nat) :
    s.expireBefore highNs = s ∨ s.expireBefore highNs = s.discard .framing false := by
  unfold State.expireBefore; split
  · exact .inr rfl
  · exact .inl rfl

end Sys2Proof.Machine
end

