-- ==== Sys2Proof/Laws/Memory.lean ====
section
/-! SUPPORT. The pattern array: read after write, and that every memory operation keeps the canonical form. -/

namespace Sys2Proof.Machine

open Sys2Proof

/-- A key not above `low` lies outside the part of the list above `low`, and reads 00h. -/
theorem Memory.read_below (m : Memory) (low key : Nat) (h : Memory.wfAbove (some low) m = true) (hk : key ≤ low) :
    m.read key = 0 := by
  induction m generalizing low with
  | nil => rfl
  | cons c m ih =>
    obtain ⟨k, v⟩ := c
    simp only [Memory.wfAbove, Bool.and_eq_true, decide_eq_true_eq] at h
    simp only [Memory.read]
    rw [if_neg (by omega), ih k h.2 (by omega)]

/-- A lower bound may be lowered. -/
theorem Memory.wfAbove_mono (m : Memory) (low j : Nat) (h : Memory.wfAbove (some low) m = true) (hj : j ≤ low) :
    Memory.wfAbove (some j) m = true := by
  cases m with
  | nil => rfl
  | cons c m =>
    obtain ⟨k, v⟩ := c
    simp only [Memory.wfAbove, Bool.and_eq_true, decide_eq_true_eq] at h ⊢
    exact ⟨⟨⟨by omega, h.1.1.2⟩, h.1.2⟩, h.2⟩

/-- A lower bound may be dropped. -/
theorem Memory.wf_of_wfAbove (m : Memory) (low : Nat) (h : Memory.wfAbove (some low) m = true) : m.wf = true := by
  cases m with
  | nil => rfl
  | cons c m =>
    obtain ⟨k, v⟩ := c
    simp only [Memory.wf, Memory.wfAbove, Bool.and_eq_true, decide_eq_true_eq] at h ⊢
    exact ⟨⟨⟨trivial, h.1.1.2⟩, h.1.2⟩, h.2⟩

/-- A write above a bound keeps the form above the bound. -/
theorem Memory.wfAbove_write (m : Memory) (low key : Nat) (w : Byte) (h : Memory.wfAbove (some low) m = true)
    (hl : low < key) (hk : key < Config.arrayWords) : Memory.wfAbove (some low) (m.write key w) = true := by
  induction m generalizing low with
  | nil =>
    simp only [Memory.write]
    split
    · rfl
    · simp only [Memory.wfAbove, Bool.and_eq_true, decide_eq_true_eq]
      exact ⟨⟨⟨hl, hk⟩, by assumption⟩, trivial⟩
  | cons c m ih =>
    obtain ⟨k, v⟩ := c
    have h' := h
    simp only [Memory.wfAbove, Bool.and_eq_true, decide_eq_true_eq] at h
    simp only [Memory.write]
    split
    · split
      · exact h'
      · simp only [Memory.wfAbove, Bool.and_eq_true, decide_eq_true_eq]
        exact ⟨⟨⟨hl, hk⟩, by assumption⟩, ⟨⟨by assumption, h.1.1.2⟩, h.1.2⟩, h.2⟩
    · split
      · split
        · exact Memory.wfAbove_mono m k low h.2 (by omega)
        · simp only [Memory.wfAbove, Bool.and_eq_true, decide_eq_true_eq]
          exact ⟨⟨⟨hl, hk⟩, by assumption⟩, by subst_vars; exact h.2⟩
      · simp only [Memory.wfAbove, Bool.and_eq_true, decide_eq_true_eq]
        exact ⟨⟨⟨h.1.1.1, h.1.1.2⟩, h.1.2⟩, ih k h.2 (by omega)⟩

/-- A write inside the array keeps the canonical form. -/
theorem Memory.wf_write (m : Memory) (key : Nat) (w : Byte) (h : m.wf = true) (hk : key < Config.arrayWords) :
    (m.write key w).wf = true := by
  cases m with
  | nil =>
    simp only [Memory.write]
    split
    · rfl
    · simp only [Memory.wf, Memory.wfAbove, Bool.and_eq_true, decide_eq_true_eq]
      exact ⟨⟨⟨trivial, hk⟩, by assumption⟩, trivial⟩
  | cons c m =>
    obtain ⟨k, v⟩ := c
    have h' := h
    simp only [Memory.wf, Memory.wfAbove, Bool.and_eq_true, decide_eq_true_eq] at h
    simp only [Memory.write]
    split
    · split
      · exact h'
      · simp only [Memory.wf, Memory.wfAbove, Bool.and_eq_true, decide_eq_true_eq]
        exact ⟨⟨⟨trivial, hk⟩, by assumption⟩, ⟨⟨by assumption, h.1.1.2⟩, h.1.2⟩, h.2⟩
    · split
      · split
        · exact Memory.wf_of_wfAbove m k h.2
        · simp only [Memory.wf, Memory.wfAbove, Bool.and_eq_true, decide_eq_true_eq]
          exact ⟨⟨⟨trivial, hk⟩, by assumption⟩, by subst_vars; exact h.2⟩
      · simp only [Memory.wf, Memory.wfAbove, Bool.and_eq_true, decide_eq_true_eq]
        exact ⟨⟨⟨trivial, h.1.1.2⟩, h.1.2⟩, Memory.wfAbove_write m k key w h.2 (by omega) hk⟩

/-- Writes inside the array keep the canonical form. -/
theorem Memory.wf_writeList (m : Memory) (key : Nat) (ws : List Byte) (h : m.wf = true)
    (hk : key + ws.length ≤ Config.arrayWords) : (m.writeList key ws).wf = true := by
  induction ws generalizing m key with
  | nil => exact h
  | cons w ws ih =>
    simp only [List.length_cons] at hk
    exact ih (m.write key w) (key + 1) (Memory.wf_write m key w h (by omega)) (by omega)

/-- The array in hard reset is in canonical form. -/
theorem State.reset_array_wf : State.reset.array.wf = true := rfl

/-- A write determines the word at its key and leaves every other word, in a list above a bound. -/
theorem Memory.read_write_above (m : Memory) (low : Option Nat) (key k : Nat) (w : Byte)
    (h : Memory.wfAbove low m = true) : (m.write key w).read k = if k = key then w else m.read k := by
  induction m generalizing low with
  | nil =>
    unfold Memory.write
    split
    · next hw => simp [Memory.read, hw]
    · simp [Memory.read]
  | cons c m ih =>
    obtain ⟨j, v⟩ := c
    simp only [Memory.wfAbove, Bool.and_eq_true] at h
    have above : ∀ i, i ≤ j → Memory.read m i = 0 := fun i hi => Memory.read_below m j i h.2 hi
    unfold Memory.write
    split
    · next hlt =>
      split
      · next hw =>
        by_cases hk : k = key
        · subst hk
          rw [if_pos rfl, hw]
          simp only [Memory.read]
          rw [if_neg (by omega), above k (by omega)]
        · rw [if_neg hk]
      · simp only [Memory.read]
    · next hlt =>
      split
      · next he =>
        subst he
        split
        · next hw =>
          by_cases hk : k = key
          · subst hk
            rw [if_pos rfl, hw, above k (Nat.le_refl k)]
          · simp [Memory.read, hk]
        · by_cases hk : k = key <;> simp [Memory.read, hk]
      · next he =>
        simp only [Memory.read]
        rw [ih (some j) h.2]
        by_cases hj : k = j
        · rw [if_pos hj, if_pos hj, if_neg (by omega)]
        · rw [if_neg hj, if_neg hj]

/-- A read after a write (in canonical form). -/
theorem Memory.read_write (m : Memory) (key k : Nat) (w : Byte) (h : m.wf = true) :
    (m.write key w).read k = if k = key then w else m.read k :=
  Memory.read_write_above m none key k w h

/-- Reads after writes to consecutive keys. -/
theorem Memory.read_writeList (m : Memory) (key k : Nat) (ws : List Byte) (h : m.wf = true)
    (hk : key + ws.length ≤ Config.arrayWords) :
    (m.writeList key ws).read k = if key ≤ k ∧ k < key + ws.length then ws.getD (k - key) 0 else m.read k := by
  induction ws generalizing m key with
  | nil =>
    simp only [Memory.writeList, List.length_nil]
    rw [if_neg (by omega)]
  | cons w ws ih =>
    simp only [List.length_cons] at hk
    simp only [Memory.writeList]
    rw [ih (m.write key w) (key + 1) (Memory.wf_write m key w h (by omega)) (by omega), Memory.read_write m key k w h]
    simp only [List.length_cons]
    by_cases h1 : k = key
    · subst h1
      rw [if_neg (by omega), if_pos rfl, if_pos (by omega)]
      simp
    · by_cases h2 : key + 1 ≤ k ∧ k < key + 1 + ws.length
      · rw [if_pos h2, if_pos (by omega), show k - key = (k - (key + 1)) + 1 by omega]
        simp
      · rw [if_neg h2, if_neg h1, if_neg (by omega)]

/-- Reading consecutive keys gives the word of each. -/
theorem Memory.readList_getElem? (m : Memory) (key count i : Nat) (h : i < count) :
    (m.readList key count)[i]? = some (m.read (key + i)) := by
  simp [Memory.readList, h]

@[simp] theorem Memory.readList_length (m : Memory) (key count : Nat) : (m.readList key count).length = count := by
  simp [Memory.readList]

/-- A row's keys lie inside the array. -/
theorem cellKey_lt (r : Row) (column count : Nat) (h : column + count ≤ 512) :
    cellKey r column + count ≤ Config.arrayWords := by
  have := r.isLt
  simp only [cellKey, Config.rowWords, Config.arrayWords]
  omega

/-- A half's columns lie inside a row. -/
theorem Half.column_lt (h : Half) (c : Byte) : h.column c < 512 := by
  have := c.isLt
  cases h <;> simp only [Half.column] <;> omega

end Sys2Proof.Machine
end

