-- ==== Sys2Proof/Laws/Selection.lean ====
section
/-! SUPPORT. What the transfer engine's selection can do (R49 to R58): it takes pending claims alone, and changes lanes,
notices, owed LANE STALLs, the open request table, the reply list, the host array queue and the port. -/

namespace Sys2Proof.Machine

open Sys2Proof

/-- A pending lane claim is that of the slot it names (R46, R47). -/
theorem State.claim_of_mem (s : State) (c : LaneClaim) (h : c ∈ s.laneClaims) :
    ((s.lane c.lane).slot c.slot).claim? = some (c.cue, c.age) := by
  unfold State.laneClaims at h
  obtain ⟨l, _, hl⟩ := List.mem_flatMap.mp h
  unfold Lane.claims at hl
  simp only [List.mem_append, List.mem_map, Option.mem_toList] at hl
  rcases hl with ⟨x, hx, rfl⟩ | ⟨x, hx, rfl⟩ <;> exact hx

/-- The slot of a pending claim holds the claim's cue. -/
theorem Slot.cue_of_claim (x : Slot) (c : HeldCue) (age : Nat) (h : x.claim? = some (c, age)) : x.cue? = some c := by
  cases x <;> simp_all [Slot.claim?, Slot.cue?]

/-- The better of two claims is one of them. -/
theorem State.betterClaim_eq (s : State) (x y : LaneClaim) : s.betterClaim x y = x ∨ s.betterClaim x y = y := by
  unfold State.betterClaim
  split
  · exact .inr rfl
  · exact .inl rfl

/-- The best lane claim is pending (R53). -/
theorem State.bestClaim_mem (s : State) (c : LaneClaim) (h : s.bestClaim = some c) : c ∈ s.laneClaims := by
  unfold State.bestClaim at h
  split at h
  · cases h
  · next d cs hl =>
    cases h
    rw [hl]
    clear hl
    induction cs generalizing d with
    | nil => exact List.mem_singleton.mpr rfl
    | cons e cs ih =>
      rcases List.mem_cons.mp (ih (s.betterClaim d e)) with h | h
      · rcases s.betterClaim_eq d e with k | k <;> rw [List.foldl_cons, h, k] <;> simp
      · exact List.mem_cons_of_mem _ (List.mem_cons_of_mem _ h)

/-- A chosen host operation stands at the head of the host array queue (R54, R147). -/
theorem State.choose_host (s : State) (op : HostOp) (rest : List HostOp) (h : s.choose = some (.host op rest)) :
    s.hostWaiting = op :: rest := by
  unfold State.choose at h
  split at h
  · cases h
  · cases h
  · next hw _ =>
    cases h
    exact hw
  · next hw _ =>
    split at h
    · cases h
      exact hw
    · cases h

/-- A chosen lane claim is the best one, and no HOST claim has run out of patience (R54, R55). -/
theorem State.choose_lane (s : State) (c : LaneClaim) (h : s.choose = some (.lane c)) :
    s.bestClaim = some c ∧ (s.hostWaiting = [] ∨ s.port.laneGrants < 3) := by
  unfold State.choose at h
  split at h
  · cases h
  · next hw hb =>
    cases h
    exact ⟨hb, .inl hw⟩
  · cases h
  · next hb =>
    split at h
    · cases h
    · next hn =>
      cases h
      exact ⟨hb, .inr (by simpa [Config.hostShare] using hn)⟩

/-- Nothing is chosen exactly when nothing is pending (R49). -/
theorem State.choose_none (s : State) (h : s.choose = none) : s.hostWaiting = [] ∧ s.laneClaims = [] := by
  unfold State.choose at h
  split at h
  · next hw hb =>
    refine ⟨hw, ?_⟩
    unfold State.bestClaim at hb
    split at hb
    · assumption
    · cases hb
  · cases h
  · cases h
  · split at h <;> cases h

/-- What holds before a selection event holds after it, if a grant keeps it, and so does the dropping of an unbound lane
claim and of an unbound host operation (R49, R50, R57, R58). -/
theorem State.select_keeps (P : State → Prop)
    (grantHost : ∀ s op rest res, P s → s.port.inFlight = none → s.choose = some (.host op rest) →
      s.resolve op.ref = some res → P (s.grantHost op rest res))
    (grantLane : ∀ s c res, P s → s.port.inFlight = none → s.choose = some (.lane c) →
      s.resolve c.cue.record.ref = some res → P (s.grantLane c res))
    (dropHost : ∀ s op rest, P s → s.port.inFlight = none → s.choose = some (.host op rest) →
      s.resolve op.ref = none → P (s.dropHost op rest) ∧ (s.dropHost op rest).port.inFlight = none)
    (dropClaim : ∀ s c, P s → s.port.inFlight = none → s.choose = some (.lane c) →
      s.resolve c.cue.record.ref = none → P (s.dropClaim c) ∧ (s.dropClaim c).port.inFlight = none)
    (s : State) (h : P s) : P s.select := by
  have loop : ∀ fuel (t : State), P t → t.port.inFlight = none → P (t.selectLoop fuel) := by
    intro fuel
    induction fuel with
    | zero => exact fun _ ht _ => ht
    | succ fuel ih =>
      intro t ht hp
      unfold State.selectLoop
      split
      · exact ht
      · next op rest hc =>
        split
        · next res hr => exact grantHost t op rest res ht hp hc hr
        · next hr =>
          obtain ⟨h1, h2⟩ := dropHost t op rest ht hp hc hr
          exact ih _ h1 h2
      · next c hc =>
        split
        · next res hr => exact grantLane t c res ht hp hc hr
        · next hr =>
          obtain ⟨h1, h2⟩ := dropClaim t c ht hp hc hr
          exact ih _ h1 h2
  unfold State.select
  split
  · exact h
  · next hp => exact loop _ s h hp

/-- Dropping a claim leaves the port as it was (R57). -/
theorem State.dropClaim_port (s : State) (c : LaneClaim) : (s.dropClaim c).port = s.port := by
  unfold State.dropClaim
  rw [(State.LaneAndLinkWork.settleLane _ _ _).port_eq, (State.LaneWork.retire _ _ _ _).port_eq]
  rfl

/-- Dropping a claim leaves the lane with one held cue fewer, and no lane with more (R57, R18). -/
theorem State.dropClaim_selectFuel (s : State) (c : LaneClaim) (h : s.choose = some (.lane c)) :
    (s.dropClaim c).selectFuel < s.selectFuel := by
  have hcue := Slot.cue_of_claim _ _ _ (s.claim_of_mem c (s.bestClaim_mem c (s.choose_lane c h).1))
  let t := s.mapLane c.lane fun ln => ln.setSlot c.slot .empty
  have hno : t.HoldsNoMore (s.dropClaim c) :=
    (State.HoldsNoMore.retire _ _ _ _).trans (State.HoldsNoMore.settleLane _ _ _)
  have hhost : (s.dropClaim c).hostWaiting = s.hostWaiting := by
    unfold State.dropClaim
    rw [(State.LaneAndLinkWork.settleLane _ _ _).hostWaiting_eq, (State.LaneWork.retire _ _ _ _).hostWaiting_eq]
    rfl
  have less : ((s.dropClaim c).lane c.lane).heldCount + 1 ≤ (s.lane c.lane).heldCount := by
    have hle := (hno c.lane).length_le
    have hlt : (t.lane c.lane).heldCount + 1 = (s.lane c.lane).heldCount := by
      rw [State.lane_mapLane_same]
      exact Lane.heldCount_setSlot_none _ _ _ rfl (by rw [hcue]; rfl)
    unfold Lane.heldCount at hlt ⊢
    omega
  have noMore (m : LaneId) (hm : m ≠ c.lane) : ((s.dropClaim c).lane m).heldCount ≤ (s.lane m).heldCount := by
    have hle := (hno m).length_le
    rwa [show t.lane m = s.lane m from State.lane_mapLane_other _ _ _ _ hm] at hle
  unfold State.selectFuel
  rw [hhost]
  simp only [laneOrder, List.map_cons, List.map_nil, List.sum_cons, List.sum_nil]
  generalize s.dropClaim c = v at less noMore
  cases hl : c.lane <;> rw [hl] at less noMore
  · have := noMore .l1 (by decide); have := noMore .l2 (by decide); have := noMore .l3 (by decide); omega
  · have := noMore .l0 (by decide); have := noMore .l2 (by decide); have := noMore .l3 (by decide); omega
  · have := noMore .l0 (by decide); have := noMore .l1 (by decide); have := noMore .l3 (by decide); omega
  · have := noMore .l0 (by decide); have := noMore .l1 (by decide); have := noMore .l2 (by decide); omega

/-- Dropping a host operation leaves one operation fewer waiting, and every lane as it was (R58). -/
theorem State.dropHost_selectFuel (s : State) (op : HostOp) (rest : List HostOp)
    (h : s.choose = some (.host op rest)) : (s.dropHost op rest).selectFuel < s.selectFuel := by
  have hhost : (s.dropHost op rest).hostWaiting = rest := by
    unfold State.dropHost
    rw [(State.LaneAndLinkWork.answer _ _ _ _).hostWaiting_eq]
  have hlane (l : LaneId) : (s.dropHost op rest).lane l = s.lane l := by
    unfold State.dropHost State.lane
    rw [State.answer_lanes]
  unfold State.selectFuel
  rw [hhost, s.choose_host op rest h]
  simp only [hlane, List.length_cons]
  omega

/-- Turns beyond the bound change nothing. -/
theorem State.selectLoop_fuel : ∀ (n m : Nat) (s : State), s.selectFuel ≤ n → s.selectFuel ≤ m →
    s.selectLoop n = s.selectLoop m
  | 0, _, _, h, _ => by unfold State.selectFuel at h; omega
  | _ + 1, 0, _, _, h => by unfold State.selectFuel at h; omega
  | n + 1, m + 1, s, hn, hm => by
    unfold State.selectLoop
    split
    · rfl
    · next op rest hc =>
      have := s.dropHost_selectFuel op rest hc
      split
      · rfl
      · exact State.selectLoop_fuel n m _ (by omega) (by omega)
    · next c hc =>
      have := s.dropClaim_selectFuel c hc
      split
      · rfl
      · exact State.selectLoop_fuel n m _ (by omega) (by omega)

/-- A selection that finds its lane claim's alias unbound drops the claim and selects again (R57). -/
theorem State.select_dropClaim (s : State) (c : LaneClaim) (hp : s.port.inFlight = none)
    (hc : s.choose = some (.lane c)) (hr : s.resolve c.cue.record.ref = none) :
    s.select = (s.dropClaim c).select := by
  have less := s.dropClaim_selectFuel c hc
  have hp' : (s.dropClaim c).port.inFlight = none := by rw [s.dropClaim_port, hp]
  unfold State.select
  simp only [hp, hp']
  rw [show s.selectFuel = (s.selectFuel - 1) + 1 by omega, State.selectLoop]
  simp only [hc, hr]
  exact State.selectLoop_fuel _ _ _ (by omega) (by omega)

/-- A selection that finds its host operation's alias unbound drops the operation and selects again (R58). -/
theorem State.select_dropHost (s : State) (op : HostOp) (rest : List HostOp) (hp : s.port.inFlight = none)
    (hc : s.choose = some (.host op rest)) (hr : s.resolve op.ref = none) :
    s.select = (s.dropHost op rest).select := by
  have less := s.dropHost_selectFuel op rest hc
  have hp' : (s.dropHost op rest).port.inFlight = none := by
    unfold State.dropHost
    rw [(State.LaneAndLinkWork.answer _ _ _ _).port_eq, hp]
  unfold State.select
  simp only [hp, hp']
  rw [show s.selectFuel = (s.selectFuel - 1) + 1 by omega, State.selectLoop]
  simp only [hc, hr]
  exact State.selectLoop_fuel _ _ _ (by omega) (by omega)

end Sys2Proof.Machine
end

