-- ==== Sys2Proof/Tests/Slice0.lean ====
section
/-! SUPPORT. Small tests of single steps, with expected results from the spec's tables and examples, and a witness for the
hypotheses of each statement. -/

namespace Sys2Proof.Tests

-- One theorem after the other: checked side by side, their threads' stacks pass the memory limit.
set_option Elab.async false

open Sys2Proof Sys2Proof.Machine

/-! ## Helpers -/

/-- What a command leaves. -/
def after (c : Instr) (s : State) : State :=
  match exec c s with
  | .next t => t
  | .fault _ => s
  | .refused _ => s

/-- RESETN high, the array READY, nothing else done yet. -/
def up : State := { State.reset with resetn := true, arrayState := .ready }

def cue (id : Byte) : Cue :=
  { id := id, ref := .row 5, half := .upper, tap := 2, last := 4, reps := .count 1, notifyStart := true,
    notifyEnd := true, haltAfter := false, mark := true }

def held (id : Byte) (order : Nat) : HeldCue := { record := cue id, order := order, stallTally := 0, dropTally := 0 }

/-- The ten bytes of cue 9 on row 5, lower half, tap 2, last 4, repeat 1, no flag but LAST PRESENT (Table 10-4). -/
def nine : List Byte := [9, 0, 5, 0, 0, 2, 4, 1, 0, 0x10]

def res : Resolution := { row := 5, generation := none }

/-- An ACTIVE slot's progress with one repetition left. -/
def at' (pointer : Byte) (begun : Bool) : Progress :=
  { pointer := pointer, repsLeft := .count 1, begun := begun, finalShown := false }

def words : List Byte := [0x10, 0x11, 0x12]

/-- L0 plays cue 1 in slot A, with slot B as given. -/
def playing (p : Progress) (b : Slot) (stall : StallPolicy) (dry : DryPolicy) : State :=
  up.mapLane .l0 fun ln =>
    { ln with
      config := { LaneConfig.default with stall := stall, dry := dry }
      state := .running, slotA := .playing (held 1 0) words res p, slotB := b, lastCue := some 1 }

/-- L0 captures cue 1 in slot A with the words taken so far, slot B as given. -/
def capturing (taken : List Byte) (p : Progress) (b : Slot) : State :=
  up.mapLane .l0 fun ln =>
    { ln with
      config := { LaneConfig.default with mode := .capture, stall := .drop }
      state := .running, slotA := .capturing (held 1 0) taken p, slotB := b, lastCue := some 1 }

/-- L0 with cues 1 and 2 waiting, in a given state and mode. -/
def waiting (st : LaneState) (m : Mode) : State :=
  up.mapLane .l0 fun ln =>
    { ln with config := { LaneConfig.default with mode := m }, state := st, queue := [held 1 0, held 2 1] }

/-- L0 as a member of G1, READY with cue 1 LOADED; L1 as a RUNNING member. -/
def grouped (trigger : TriggerSource) (st : GroupState) : State :=
  let member : LaneConfig := { LaneConfig.default with group := some .g1 }
  let s := up.mapLane .l0 fun ln =>
    { ln with config := member, state := .ready, slotA := .loaded (held 1 0) words res }
  let s := s.mapLane .l1 fun ln =>
    { ln with config := member, state := .running, slotA := .playing (held 3 0) words res (at' 2 false) }
  s.setGroup .g1 { trigger := trigger, haltTogether := true, state := st }

/-- The port carries an operation granted at 0. -/
def busy (op : Operation) (s : State) : State :=
  { s with port := { s.port with inFlight := some { op := op, grantedAt := 0 } } }

/-- L0's slot A in a given state, the lane PRIMING. -/
def slotted (a : Slot) : State := up.mapLane .l0 fun ln => { ln with state := .priming, slotA := a }

/-- A read of row 5, columns 0 and 1, and its open request. -/
def readOp : HostOp := { tag := 7, ref := .row 5, kind := .read 0 2 }

def opened (code tag : Byte) (s : State) : State :=
  { s with link := { s.link with
      table := s.link.table ++ [{ tag := tag, code := code, payload := [], state := .withOwner }] } }

/-- Three entries of the notice queue, 4 to 6, the first SENT. -/
def noticed : State :=
  { up with notices :=
      { entries := [{ seq := 4, notice := .arrayReady, sent := true }, { seq := 5, notice := .arrayReady, sent := false },
                    { seq := 6, notice := .arrayReady, sent := false }]
        nextSeq := 7, lost := 2 } }

/-! ## Well-formedness: an ill-formed command for each check -/

theorem test_long_payload_refused : Instr.wellFormed (.echo 1 (List.replicate 529 0)) = false := by decide +kernel

theorem test_longest_payload_accepted : Instr.wellFormed (.echo 1 (List.replicate 528 0)) = true := by decide +kernel

theorem test_unknown_with_request_code_refused : Instr.wellFormed (.unknownRequest 1 0x70 []) = false := by decide

theorem test_unknown_with_long_payload_refused :
    Instr.wellFormed (.unknownRequest 1 0x73 (List.replicate 529 0)) = false := by decide +kernel

theorem test_edge_outside_its_unit_refused :
    Instr.wellFormed (.lckEdge .l0 5 0 false) = false ∧ Instr.wellFormed (.lckEdge .l0 4 0 false) = true := by decide

theorem test_unknown_accepted : Instr.wellFormed (.unknownRequest 1 0x73 []) = true := by decide

/-! ## Frames (chapter 10) -/

/-- R157's worked value: the digits 1 to 9 in ASCII give 29B1h. -/
theorem test_crc_of_digits : crcOf [0x31, 0x32, 0x33, 0x34, 0x35, 0x36, 0x37, 0x38, 0x39] = 0x29B1 := by decide +kernel

/-- Section 11.1.1: the first frame is START, PIN, 2 Mbit/s, ten bytes long. -/
theorem test_release_sends_start :
    (after (.resetnRelease true false false) State.reset).tx.sending.map
      (fun f => (f.frame.take 8, f.frame.length)) = some ([0xC3, 0x03, 0, 0x01, 2, 0, 0, 2], 10) := by decide +kernel

/-- Table 10-4 read by hand. -/
theorem test_cue_bytes_read :
    readCue [9, 1, 63, 0, 1, 2, 4, 0, 0x80, 0x1F] = some
      { id := 9, ref := .aliased 63, half := .upper, tap := 2, last := 4, reps := .continuous, notifyStart := true,
        notifyEnd := true, haltAfter := true, mark := true } := by decide +kernel

/-- R1, R158: a clear LAST PRESENT leaves the last byte unread. -/
theorem test_cue_last_absent :
    (readCue [9, 0, 5, 0, 0, 2, 0, 1, 0, 0]).map (fun c => c.last) = some 255 := by decide +kernel

/-- R5: last below tap, repeat 255 and flag bit 5. -/
theorem test_cue_out_of_range :
    readCue [9, 0, 5, 0, 0, 2, 1, 1, 0, 0x10] = none ∧ readCue [9, 0, 5, 0, 0, 2, 4, 255, 0, 0x10] = none ∧
      readCue [9, 0, 5, 0, 0, 2, 4, 1, 0, 0x30] = none ∧ readCue [9, 0, 0, 8, 0, 2, 4, 1, 0, 0x10] = none := by decide +kernel

/-! ## Requests: one step each -/

/-- The reply's kind, tag and code on HTX (R156). -/
def replyHead (s : State) : Option (List Byte) := s.tx.sending.map fun f => f.frame.take 4

theorem test_cuePost_first_waits :
    ((after (.cuePost 7 ([0, 1] ++ nine)) up).lane .l0).queue.map (fun c => (c.record.id, c.record.last)) = [(9, 4)] := by
  decide +kernel

theorem test_cuePost_duplicate_id : replyHead (after (.cuePost 7 ([0, 2] ++ nine ++ nine)) up) =
    some [0xC3, 0x88, 7, 0x10] := by decide +kernel

theorem test_cueFlush_reports_two :
    (after (.cueFlush 7 [0]) (waiting .idle .play)).tx.sending.map (fun f => f.frame.take 7) =
      some [0xC3, 0x80, 7, 0x11, 1, 0, 2] := by decide +kernel

/-- Table 10-6: state HALTED, no active slot, two EMPTY slots, two waiting. -/
theorem test_cueList_bytes :
    (after (.cueList 7 [0]) (waiting (.halted .ended) .play)).tx.sending.map (fun f => (f.frame.drop 6).take 9) =
      some [6, 0, 0, 0, 0, 0, 2, 1, 2] := by decide +kernel

/-- Table 11-1 at t = 400: divider 2, idle word 55h on LD. -/
theorem test_laneConfig_drives_idle_word :
    ((after (.laneConfig 2 [0, 0, 0, 2, 0, 0x55, 1, 0, 0]) up).lane .l0).pins = { ld := some 0x55, lqv := some false, lmk := false } ∧
      ((after (.laneConfig 2 [0, 0, 0, 2, 0, 0x55, 1, 0, 0]) up).lane .l0).config.clock = .internal 2 := by decide +kernel

theorem test_laneConfig_drop_on_play : replyHead (after (.laneConfig 2 [0, 0, 0, 2, 0, 0x55, 4, 0, 0]) up) =
    some [0xC3, 0x85, 2, 0x20] := by decide +kernel

/-- Table 11-1 at t = 5500: A's refill is granted, B's claim waits. -/
theorem test_laneStart_stages_two :
    let ln := (after (.laneStart 8 [0]) (waiting .idle .play)).lane .l0
    ln.state = .priming ∧ ln.slotA = .loading (held 1 0) ∧ ln.slotB = .staged (held 2 1) 1 ∧ ln.queue = [] := by
  decide +kernel

theorem test_laneStop_now_cuts :
    let s := after (.laneStop 7 [0, 0]) (playing (at' 3 true) .empty .hold .stop)
    (s.lane .l0).state = .halted .request ∧ s.notices.entries.map (fun e => e.notice) =
      [.cueEnd .l0 1 .cut 0 0, .laneHalted .l0 .request (some 1) []] := by decide +kernel

/-- R125: the halted member's own notices, then its fellow's, each CUE END ahead of its LANE HALTED. -/
theorem test_laneStop_halts_together :
    let s := (grouped .request .fired).mapLane .l0 fun ln =>
      { ln with state := .running, slotA := .playing (held 1 0) words res (at' 3 true), lastCue := some 1 }
    let s := s.mapLane .l1 fun ln => { ln with slotA := .playing (held 3 0) words res (at' 3 true), lastCue := some 3 }
    (after (.laneStop 7 [1, 0]) s).notices.entries.map (fun e => e.notice) =
      [.cueEnd .l1 3 .cut 0 0, .laneHalted .l1 .request (some 3) [], .cueEnd .l0 1 .cut 0 0,
        .laneHalted .l0 .group (some 1) []] := by decide +kernel

theorem test_laneReset_waits_for_refill :
    let s := after (.laneReset 7 [0]) (busy (.refill .l0 .a res) (slotted (.loading (held 1 0))))
    (s.lane .l0).state = .resetting ∧ (s.lane .l0).slotA = .discarding ∧ s.tx.sending = none := by decide +kernel

/-- Table 10-6: RUNNING, active slot A, pointer 3, one repetition left, A ACTIVE with cue 1. -/
theorem test_laneStatus_bytes :
    (after (.laneStatus 7 [0, 0]) (playing (at' 3 true) .empty .hold .stop)).tx.sending.map
      (fun f => (f.frame.drop 6).take 16) = some [3, 0, 0, 1, 3, 1, 4, 1, 0, 0, 0, 0, 0, 0, 0, 0] := by decide +kernel

theorem test_rowWrite_granted_at_dispatch :
    (after (.rowWrite 7 [0, 5, 0, 254, 1, 2, 0, 0xAA, 0xBB]) up).port.inFlight =
      some { op := .host { tag := 7, ref := .row 5, kind := .write 510 [0xAA, 0xBB] } res, grantedAt := 0 } := by
  decide +kernel

/-- R46: with the port busy the operation is the HOST claim, of the event at which it was placed. -/
theorem test_rowRead_claims :
    let s := after (.rowRead 8 [0, 5, 0, 0, 0, 2, 0]) { busy (.host readOp res) up with event := 4 }
    s.hostWaiting = [{ readOp with tag := 8 }] ∧ s.hostClaimAge = some 5 := by decide +kernel

/-- R109: start and count past the row's end. -/
theorem test_rowRead_past_the_end : replyHead (after (.rowRead 7 [0, 5, 0, 255, 1, 2, 0]) up) =
    some [0xC3, 0x85, 7, 0x31] := by decide +kernel

theorem test_rowFill_unbound : replyHead (after (.rowFill 7 [1, 3, 0, 0, 0, 9, 0, 0xFF]) up) =
    some [0xC3, 0x8B, 7, 0x32] := by decide +kernel

/-- Table 11-1 at t = 1100: alias 3, row 0, generation 1. -/
theorem test_aliasBind_bytes :
    (after (.aliasBind 6 [3, 0, 0]) up).tx.sending.map (fun f => f.frame.take 11) =
      some [0xC3, 0x80, 6, 0x40, 5, 0, 3, 1, 0, 0, 1] := by decide +kernel

theorem test_aliasUnbind_keeps_unbound :
    (after (.aliasUnbind 6 [3]) up).aliasAt 3 = { row := none, generation := 0 } := by decide +kernel

theorem test_aliasQuery_above_63 : replyHead (after (.aliasQuery 6 [64]) up) = some [0xC3, 0x85, 6, 0x42] := by
  decide +kernel

theorem test_groupConfig_sets_trigger :
    (after (.groupConfig 6 [2, 2, 1]) up).group .g2 = { trigger := .pinFall, haltTogether := true, state := .opened } := by
  decide +kernel

theorem test_groupGo_fires :
    let s := after (.groupGo 6 [1]) (grouped .request .armed)
    (s.group .g1).state = .fired ∧ (s.lane .l0).state = .running ∧
      s.notices.entries.map (fun e => e.notice) = [.groupFired .g1 [.l0]] := by decide +kernel

theorem test_groupStop_halts_both :
    let s := after (.groupStop 6 [1]) (grouped .request .fired)
    (s.lane .l0).state = .halted .request ∧ (s.lane .l1).state = .halted .request ∧ (s.group .g1).state = .opened := by
  decide +kernel

theorem test_groupStatus_bytes :
    (after (.groupStatus 6 [1]) (grouped .pinRise .armed)).tx.sending.map (fun f => (f.frame.drop 6).take 8) =
      some [1, 1, 1, 2, 0, 2, 1, 3] := by decide +kernel

theorem test_noticeResend_unsends :
    ((after (.noticeResend 40 []) noticed).notices.entries.map fun e => e.sent) = [false, false, false] := by
  decide +kernel

theorem test_echo_bytes :
    (after (.echo 1 [1, 2, 3, 4]) up).tx.sending.map (fun f => f.frame.take 10) =
      some [0xC3, 0x80, 1, 0x70, 4, 0, 1, 2, 3, 4] := by decide +kernel

/-- Table 10-6: READY, counters 0, three notices held, two lost, one open request, no host operation, four IDLE lanes. -/
theorem test_deviceStatus_bytes :
    (after (.deviceStatus 1 [0]) noticed).tx.sending.map (fun f => (f.frame.drop 6).take 14) =
      some [1, 0, 0, 0, 0, 3, 2, 0, 1, 0, 0, 0, 0, 0] := by decide +kernel

theorem test_deviceReset_starts_numbering_again :
    (after (.deviceReset 1 []) noticed).notices =
      { entries := [{ seq := 0, notice := .start .request .half, sent := false }], nextSeq := 1, lost := 0 } := by
  decide +kernel

theorem test_unknownRequest_status : replyHead (after (.unknownRequest 1 0x73 []) up) = some [0xC3, 0x83, 1, 0x73] := by
  decide +kernel

/-! ## Events: one step each -/

/-- Table 3-2: columns 255 and 256 lie in two halves. -/
theorem test_duration_of_halves :
    let op (kind : HostKind) := (Operation.host { readOp with kind := kind } res).duration
    op (.write 255 [1]) = 1280 ∧ op (.write 255 [1, 2]) = 2560 ∧ op (.read 256 256) = 1280 ∧ op (.fill 255 256 0) = 2560 := by
  decide +kernel

/-- R133, R135: the entries through 5 leave, and the two lost are reported. -/
theorem test_noticeAck_reports_lost :
    let q := (after (.noticeAck 5) noticed).notices
    q.entries.map (fun e => (e.seq, e.notice)) = [(6, .arrayReady), (7, .noticesLost 2)] ∧ q.lost = 0 := by
  decide +kernel

theorem test_frameDiscard_counts :
    (after (.frameDiscard ⟨.oversize, 0⟩) up).link.oversizeErrors = 1 ∧
      (after (.frameDiscard ⟨.wrongKind, 0⟩) up).link.framingErrors = 1 := by
  decide +kernel

/-- The receiver after a character fault, at 0.5 Mbit/s: one bit time is 2000 ns (Table 9-1). -/
def blocked : State := up.setReceiver { up.link.receiver with lineBlocked := true }

/-- R140: HRX was high for less than one bit time before the frame's start bit. -/
theorem test_frameDiscard_after_fault :
    (after (.frameDiscard ⟨.crcMismatch, 1999⟩) blocked).link.crcErrors = 0 ∧
      (after (.frameDiscard ⟨.crcMismatch, 2000⟩) blocked).link.crcErrors = 1 := by decide +kernel

theorem test_idleExpiry_in_hunting_is_nothing : (after .idleExpiry up).link.framingErrors = 0 := by decide +kernel

/-- A receiver at 0.5 Mbit/s that awaits the kind of a frame; its last stop bit came at 0. -/
def inFrame (now : Nat) : State :=
  { up with
    now := now
    link := { up.link with receiver := { Receiver.hunting with state := .header, remaining := 5, lastStop := 0 } } }

/-- Table 9-3: 32 bit times at 0.5 Mbit/s are 64 µs. -/
theorem test_idleExpiry_after_64_us :
    (after .idleExpiry (inFrame 63995)).link.framingErrors = 0 ∧ (after .idleExpiry (inFrame 64000)).link.framingErrors = 1 ∧
      (after .idleExpiry (inFrame 64000)).link.receiver.state = .hunting := by decide +kernel

theorem test_hardReset_quiet : (after .hardReset (grouped .request .fired)).lanes = State.reset.lanes := by decide +kernel

theorem test_trigEdge_short_is_none : (after (.trigEdge true 49) (grouped .pinRise .opened)).notices.entries = [] := by
  decide +kernel

/-- R37, R39: the last word of the span, PLAYED, and dry under STOP. -/
theorem test_dividerExpiry_last_word :
    let s := after (.dividerExpiry .l0 0 false) (playing (at' 4 true) .empty .hold .stop)
    (s.lane .l0).lastWord = 0x12 ∧ (s.lane .l0).state = .halted .ended ∧ s.notices.entries.map (fun e => e.notice) =
      [.cueEnd .l0 1 .played 0 0, .laneHalted .l0 .ended (some 1) []] := by decide +kernel

theorem test_dividerExpiry_first_word_marks :
    ((after (.dividerExpiry .l0 0 false) (playing (at' 2 false) .empty .hold .stop)).lane .l0).pins =
      { ld := some 0x10, lqv := some true, lmk := true } := by decide +kernel

theorem test_lckEdge_of_internal_lane_is_none :
    ((after (.lckEdge .l0 0 0 false) (playing (at' 2 false) .empty .hold .stop)).lane .l0).slotA =
      .playing (held 1 0) words res (at' 2 false) := by decide +kernel

/-- L0 plays cue 1 on LCK edges; its last edge taken as a beat came at 0. -/
def clocked (now : Nat) : State :=
  { (playing (at' 2 false) .empty .hold .stop).mapLane .l0 fun ln =>
      { ln with config := { ln.config with clock := .external }, lastEdge := some 0 } with now := now }

/-- R27: of edges 5 ns apart, 45 and 50 ns after the last beat, the second is a beat and the one the next is measured from. -/
theorem test_lckEdge_fifty_after_the_last_beat :
    let early := after (.lckEdge .l0 4 0 false) (clocked 45)
    let next := after (.lckEdge .l0 2 0 false) { early with now := 50 }
    (early.lane .l0).lastEdge = some 0 ∧ (early.lane .l0).pins = ((clocked 0).lane .l0).pins ∧
      (next.lane .l0).lastEdge = some 52 ∧ (next.lane .l0).pins.ld = some 0x10 := by decide +kernel

/-- R77, R94, R97: L0's capture overruns on a slot that waits on its commit; the selection of the same event finds that
commit's alias unbound, which leaves the lane DRY under WAIT: the CUE END stands ahead of both LANE STALLs. R68: where an
underrun's cue proves unbound in the span-end event, the dry policy acts in it and the LANE STALL UNDERRUN is not queued. -/
theorem test_dividerExpiry_stalls :
    let unbound (id : Byte) (order : Nat) : HeldCue := { held id order with record := { cue id with ref := .aliased 3 } }
    let s := up.mapLane .l0 fun ln =>
      { ln with
        config := { LaneConfig.default with mode := .capture, stall := .drop, dry := .wait }
        state := .running, slotA := .commitWait (unbound 2 0) words { first := 2, last := 4 } 0
        slotB := .capturing (held 1 1) [0x21, 0x22] (at' 4 true), lastCue := some 1 }
    (after (.dividerExpiry .l0 0x23 true) s).notices.entries.map (fun e => e.notice) =
        [.cueEnd .l0 2 .unbound 0 0, .laneStall .l0 1 .overrun, .laneStall .l0 2 .dry] ∧
      (after (.dividerExpiry .l0 0 false) (playing (at' 4 true) (.staged (unbound 2 1) 0) .hold .wait)).notices.entries.map
          (fun e => e.notice) =
        [.cueEnd .l0 1 .played 0 0, .cueEnd .l0 2 .unbound 0 0, .laneStall .l0 2 .dry] := by decide +kernel

/-- R60: the words of the upper half, columns 2 to 4. -/
theorem test_refillCompletion_takes_upper_half :
    let s := { busy (.refill .l0 .a res) (slotted (.loading (held 1 0))) with
      array := Memory.writeList [] (5 * 512 + 256 + 2) words }
    ((after .refillCompletion s).lane .l0).slotA = .loaded (held 1 0) words res ∧
      ((after .refillCompletion s).lane .l0).state = .ready := by decide +kernel

theorem test_commitCompletion_writes :
    let s := busy (.commit .l0 .a res .lower) (slotted (.committing (some (held 1 0)) [0x21, 0x22] { first := 2, last := 3 }))
    (after .commitCompletion s).array = [⟨5 * 512 + 2, 0x21⟩, ⟨5 * 512 + 3, 0x22⟩] ∧
      (after .commitCompletion s).notices.entries.map (fun e => e.notice) = [.cueEnd .l0 1 .partialSpan 0 0] := by
  decide +kernel

/-- R77, R97, R125: a commit leaves L0 DRY under WAIT, and then the selection of the same event finds L1's last cue unbound;
L1 halts and halts L0 with it: L0's LANE STALL is queued all the same. -/
theorem test_commitCompletion_dry_then_halted :
    let member : LaneConfig := { LaneConfig.default with group := some .g1 }
    let s := busy (.commit .l0 .a res .lower) (up.mapLane .l0 fun ln =>
      { ln with
        config := { member with mode := .capture, stall := .drop, dry := .wait }
        state := .stalled .overrun, slotA := .committing (some (held 1 0)) words { first := 2, last := 4 }
        lastCue := some 1 })
    let s := s.mapLane .l1 fun ln =>
      { ln with
        config := member, state := .stalled .underrun
        slotA := .staged { held 3 0 with record := { cue 3 with ref := .aliased 3 } } 0, lastCue := some 2 }
    let s := s.setGroup .g1 { trigger := .request, haltTogether := true, state := .fired }
    (after .commitCompletion s).notices.entries.map (fun e => e.notice) =
      [.cueEnd .l0 1 .captured 0 0, .cueEnd .l1 3 .unbound 0 0, .laneHalted .l1 .ended (some 2) [],
        .laneHalted .l0 .group (some 1) [], .laneStall .l0 1 .dry] := by decide +kernel

/-- R46: the next waiting operation becomes the HOST claim at the completion, and its grant leaves the third. -/
theorem test_hostOperationCompletion_ages_the_next_claim :
    let s := { busy (.host readOp res) (opened 0x31 7 up) with hostWaiting := [readOp, readOp], hostClaimAge := some 1 }
    (after .hostOperationCompletion { s with event := 8 }).hostWaiting = [readOp] ∧
      (after .hostOperationCompletion { s with event := 8 }).hostClaimAge = some 9 := by decide +kernel

theorem test_hostOperationCompletion_reads :
    let s := { busy (.host readOp res) (opened 0x31 7 up) with array := [⟨5 * 512 + 1, 0x33⟩] }
    (after .hostOperationCompletion s).tx.sending.map (fun f => (f.frame.drop 6).take 10) =
      some [1, 5, 0, 0, 0, 0, 2, 0, 0, 0x33] := by decide +kernel

theorem test_arrayClearCompletion_ready :
    let s := busy .clear { up with arrayState := .initialising, array := [⟨3, 1⟩] }
    (after .arrayClearCompletion s).arrayState = .ready ∧ (after .arrayClearCompletion s).array = [] := by decide +kernel

theorem test_transmitterFrameEnd_takes_the_next :
    let s := { noticed with tx := { noticed.tx with sending := some { frame := [], startedAt := 0 } } }
    (after .transmitterFrameEnd s).tx.sending.map (fun f => f.frame.take 4) = some [0xC3, 3, 5, 2] := by decide +kernel

theorem test_characterReceived_starts_a_frame :
    (after (.characterReceived 0xC3 ⟨true, 0⟩) up).link.receiver.state = .header ∧
      (after (.characterReceived 0xC2 ⟨true, 0⟩) up).link.receiver.state = .hunting := by decide +kernel

/-- R140: no new start bit before HRX has been high for one bit time. R142: a C3h inside a frame is a byte of it, and one
that comes after 32 bit times is received in HUNTING. -/
theorem test_characterReceived_line_times :
    (after (.characterReceived 0xC3 ⟨true, 1999⟩) blocked).link.receiver.state = .hunting ∧
      (after (.characterReceived 0xC3 ⟨true, 2000⟩) blocked).link.receiver.state = .header ∧
      (let s := after (.characterReceived 0xC3 ⟨true, 64000⟩) (inFrame 74000)
       s.link.receiver.bytes = [0xC3] ∧ s.link.receiver.lastStop = 74000 ∧ s.link.framingErrors = 0) ∧
      (let s := after (.characterReceived 0xC3 ⟨true, 64001⟩) (inFrame 74000)
       s.link.receiver.bytes = [] ∧ s.link.receiver.state = .header ∧ s.link.framingErrors = 1) := by decide +kernel

/-- A frame of C3h and 01h, whose start bit fell at 1000, at 0.5 Mbit/s. -/
def sendingAt (now : Nat) : State :=
  { up with now := now, tx := { up.tx with sending := some { frame := [0xC3, 0x01], startedAt := 1000 } } }

/-- R139: start bit low, C3h with its least significant bit first, stop bit high, and no idle time before the next start
bit; high after the last stop bit and while RESETN is low. -/
theorem test_htx_shows_the_character :
    ([0, 1, 2, 3, 4, 5, 6, 7, 8, 9, 10, 11, 12, 19, 20].map fun i => (sendingAt (1000 + 2000 * i + 1995)).htx) =
      [false, true, true, false, false, false, false, true, true, true, false, true, false, true, true] ∧
      { sendingAt 1000 with resetn := false }.htx = true := by decide +kernel

/-! ## Witnesses: states and operands that meet the hypotheses of each statement, clause by clause -/

theorem admits (s : State) (tag : Byte) (payload : List Byte)
    (h : (s.resetn && decide (payload.length ≤ 528) && s.link.deviceReset.isNone && decide (s.placesHeld < 8) &&
      (s.entryOf tag).isNone) = true) : s.Admits tag payload := by
  simp only [Bool.and_eq_true, decide_eq_true_eq, Option.isNone_iff_eq_none] at h
  exact ⟨⟨h.1.1.1.1, h.1.1.1.2⟩, h.1.1.2, h.1.2, h.2⟩

/-- A DEVICE RESET with tag 3 waits. -/
def inReset : State :=
  let s := opened 0x72 3 up
  { s with link := { s.link with deviceReset := some 3 } }

/-- Eight open requests, tags 0 to 7. -/
def full : State := (List.range 8).foldl (fun s n => opened 0x30 (BitVec.ofNat 8 n) s) up

def resetting : State := up.mapLane .l0 fun ln => { ln with state := .resetting, slotA := .discarding }

/-- L0 HALTED with as many waiting cues, ids from 1 on. -/
def stocked (count : Nat) (m : Mode) : State :=
  up.mapLane .l0 fun ln =>
    { ln with
      config := { LaneConfig.default with mode := m }
      state := .halted .ended, queue := (List.range count).map fun i => held (BitVec.ofNat 8 (i + 1)) i }

def withQueue (q : List HeldCue) (s : State) : State := s.mapLane .l0 fun ln => { ln with queue := q }

/-- L0 with slots A and B as given. -/
def laneWith (st : LaneState) (m : Mode) (stall : StallPolicy) (a b : Slot) (q : List HeldCue) : State :=
  up.mapLane .l0 fun ln =>
    { ln with config := { LaneConfig.default with mode := m, stall := stall }, state := st, slotA := a, slotB := b,
              queue := q }

def silent (id : Byte) (order : Nat) : HeldCue :=
  { record := { cue id with notifyStart := false }, order := order, stallTally := 0, dropTally := 0 }

def committing : Slot := .committing (some (held 2 1)) words { first := 2, last := 4 }

theorem witness_IdleStepPassesTime :
    (State.reset.pending = [] ∧ State.reset.resetn = false) ∧ (up.pending = [] ∧ up.resetn = true) ∧
      (busy .clear up).port.inFlight = some { op := .clear, grantedAt := 0 } ∧ up.port.inFlight = none ∧
      ((inFrame 64000).link.receiver.state ≠ .hunting ∧
        (inFrame 64000).link.receiver.lastStop + (inFrame 64000).link.rate.idleNs = (inFrame 64000).now) := by
  decide +kernel

theorem witness_ArrivalRefusalsInOrder :
    (inReset.Arrives [0] ∧ inReset.link.deviceReset ≠ none) ∧
      (full.Arrives [0] ∧ full.link.deviceReset = none ∧ 8 ≤ full.placesHeld) ∧
      ((opened 0x70 7 up).Arrives [] ∧ (opened 0x70 7 up).link.deviceReset = none ∧ (opened 0x70 7 up).placesHeld < 8 ∧
        ∃ e ∈ (opened 0x70 7 up).link.table, e.tag = 7) :=
  ⟨⟨⟨rfl, by decide⟩, by decide⟩, ⟨⟨rfl, by decide⟩, rfl, by decide⟩, ⟨⟨rfl, by decide⟩, rfl, by decide, by decide⟩⟩

theorem witness_DispatchChecksCodeAndLength :
    (up.Admits 7 [] ∧ (0x73 : Byte) ∉ requestCodes ∧ ([] : List Byte).length ≠ 1) ∧ up.Admits 7 [0, 1, 9] ∧
      ([9] : List Byte).length ≠ 10 * (1 : Byte).toNat ∧ up.Admits 7 [0, 0] ∧
      ([] : List Byte).length = 10 * (0 : Byte).toNat ∧ up.Admits 7 (0 :: 9 :: List.replicate 90 0) ∧
      (List.replicate 90 (0 : Byte)).length = 10 * (9 : Byte).toNat ∧ up.Admits 7 [0, 5, 0, 0, 0, 2, 0, 0xAA] ∧
      ([0xAA] : List Byte).length ≠ (2 : Byte).toNat + 256 * (0 : Byte).toNat ∧
      (up.Admits 7 [4] ∧ 4 ≤ (4 : Byte).toNat) ∧ (up.Admits 7 [0] ∧ (0 : Byte).toNat = 0) ∧
      (up.Admits 7 [3] ∧ 3 ≤ (3 : Byte).toNat) :=
  ⟨⟨admits _ _ _ (by decide), by decide, by decide⟩, admits _ _ _ (by decide), by decide, admits _ _ _ (by decide),
    by decide, admits _ _ _ (by decide +kernel), by decide +kernel, admits _ _ _ (by decide), by decide,
    ⟨admits _ _ _ (by decide), by decide⟩, ⟨admits _ _ _ (by decide), by decide⟩, admits _ _ _ (by decide), by decide⟩

/-- Cue records with one field out of its range: kind, row, alias, half, repeat 0 and 255, flags, last below tap. -/
def badCues : List (List Byte) :=
  [[9, 2, 5, 0, 0, 2, 4, 1, 0, 0x10], [9, 0, 0, 8, 0, 2, 4, 1, 0, 0x10], [9, 1, 64, 0, 0, 2, 4, 1, 0, 0x10],
    [9, 0, 5, 0, 2, 2, 4, 1, 0, 0x10], [9, 0, 5, 0, 0, 2, 4, 0, 0, 0x10], [9, 0, 5, 0, 0, 2, 4, 255, 0, 0x10],
    [9, 0, 5, 0, 0, 2, 4, 1, 0, 0x20], [9, 0, 5, 0, 0, 2, 1, 1, 0, 0x10]]

/-- Other requests with one field out of its range: LANE CONFIG lane, mode, clock, divider, stall, dry and group; LANE STOP
lane and mode; DEVICE STATUS; ROW WRITE, ROW READ and ROW FILL row, alias and columns. -/
def badFields : List (List Byte) :=
  [[4, 0, 0, 2, 0, 0, 0, 0, 0], [0, 2, 0, 2, 0, 0, 0, 0, 0], [0, 0, 2, 2, 0, 0, 0, 0, 0], [0, 0, 0, 1, 0, 0, 0, 0, 0],
    [0, 0, 0, 2, 0, 0, 5, 0, 0], [0, 0, 0, 2, 0, 0, 0, 2, 0], [0, 0, 0, 2, 0, 0, 0, 0, 3], [4, 0], [0, 2], [2],
    [0, 0, 8, 0, 0, 1, 0, 9], [0, 5, 0, 0, 0, 0, 0], [0, 5, 0, 1, 0, 0, 2], [1, 64, 0, 0, 0, 0, 2, 9],
    [0, 5, 0, 0, 0, 0, 2, 9], [0, 5, 0, 2, 0, 1, 0, 9]]

theorem witness_DispatchChecksFields :
    (∀ payload ∈ badFields ++ badCues.map fun c => [0, 2] ++ nine ++ c, up.Admits 7 payload) ∧
      (up.Admits 7 ([4, 1] ++ nine) ∧ nine.length = 10 * (1 : Byte).toNat ∧ 4 ≤ (4 : Byte).toNat) ∧
      (nine.length % 10 = 0 ∧ nine.length + 10 + ([] : List Byte).length = 10 * (2 : Byte).toNat) ∧
      (2 ≤ (2 : Byte).toNat ∧ 2048 ≤ (0 : Byte).toNat + 256 * (8 : Byte).toNat ∧
        64 ≤ (64 : Byte).toNat + 256 * (0 : Byte).toNat ∧ (0 : Byte).toNat + 256 * (0 : Byte).toNat = 0 ∧
        255 ≤ (255 : Byte).toNat + 256 * (0 : Byte).toNat ∧ (255 : Byte).toNat + 256 * (0 : Byte).toNat ≠ 0x8000 ∧
        32 ≤ (0x20 : Byte).toNat ∧ (0x10 : Byte).getLsbD 4 = true ∧ (1 : Byte).toNat < (2 : Byte).toNat) ∧
      ((1 : Byte).toNat + 256 * (0 : Byte).toNat < 2 ∧ 5 ≤ (5 : Byte).toNat ∧ 3 ≤ (3 : Byte).toNat) ∧
      (512 < (1 : Byte).toNat + 256 * (0 : Byte).toNat + ((0 : Byte).toNat + 256 * (2 : Byte).toNat) ∧
        511 < (0 : Byte).toNat + 256 * (2 : Byte).toNat ∧
        (1 : Byte).toNat + 256 * (0 : Byte).toNat < (2 : Byte).toNat + 256 * (0 : Byte).toNat ∧
        ([9] : List Byte).length = (1 : Byte).toNat + 256 * (0 : Byte).toNat) :=
  ⟨fun payload h => admits _ _ _ ((by decide +kernel : ∀ q ∈ badFields ++ badCues.map fun c => [0, 2] ++ nine ++ c,
      (up.resetn && decide (q.length ≤ 528) && up.link.deviceReset.isNone && decide (up.placesHeld < 8) &&
        (up.entryOf 7).isNone) = true) payload h),
    ⟨admits _ _ _ (by decide), rfl, by decide⟩, by decide, by decide, by decide, by decide⟩

theorem witness_CuePostBytesReadBack :
    (1 ≤ [cue 9].length ∧ [cue 9].length ≤ 8 ∧ ∀ c ∈ [cue 9], c.inRange = true) ∧
      (1 ≤ (List.replicate 8 (cue 9)).length ∧ (List.replicate 8 (cue 9)).length ≤ 8 ∧
        ∀ c ∈ List.replicate 8 (cue 9), c.inRange = true) := by decide +kernel

/-- The cue that `nine` spells. -/
def nineth : Cue :=
  { id := 9, ref := .row 5, half := .lower, tap := 2, last := 4, reps := .count 1, notifyStart := false,
    notifyEnd := false, haltAfter := false, mark := false }

theorem witness_PostRefusedInOrder :
    parseCuePost ([0, 1] ++ nine) = .fields (.l0, [nineth]) ∧
      parseCuePost ([0, 2] ++ nine ++ nine) = .fields (.l0, [nineth, nineth]) ∧
      (resetting.Admits 7 ([0, 1] ++ nine) ∧ (resetting.lane .l0).state = .resetting) ∧
      ((laneWith (.ending .ended []) .capture .drop committing .empty []).Admits 7 ([0, 1] ++ nine) ∧
        ∃ r ids, ((laneWith (.ending .ended []) .capture .drop committing .empty []).lane .l0).state = .ending r ids) ∧
      ((stocked 1 .capture).Admits 7 ([0, 1] ++ [9, 0, 5, 0, 0, 2, 4, 2, 0, 0x10]) ∧
        parseCuePost ([0, 1] ++ [9, 0, 5, 0, 0, 2, 4, 2, 0, 0x10]) = .fields (.l0, [{ nineth with reps := .count 2 }]) ∧
        ((stocked 1 .capture).lane .l0).config.mode = .capture ∧ ({ nineth with reps := .count 2 } : Cue).reps ≠ .count 1) ∧
      (up.Admits 7 ([0, 2] ++ nine ++ nine) ∧ ¬ ([nineth, nineth].map fun c => c.id).Nodup) ∧
      ((withQueue [held 9 0] up).Admits 7 ([0, 1] ++ nine) ∧ (9 : Byte) ∈ ((withQueue [held 9 0] up).lane .l0).heldIds) ∧
      ((withQueue ((List.range 16).map fun i => held (BitVec.ofNat 8 (i + 10)) i) up).Admits 7 ([0, 1] ++ nine) ∧
        ((withQueue ((List.range 16).map fun i => held (BitVec.ofNat 8 (i + 10)) i) up).lane .l0).heldCount = 16 ∧
        ∀ c ∈ [nineth], c.id ∉
          ((withQueue ((List.range 16).map fun i => held (BitVec.ofNat 8 (i + 10)) i) up).lane .l0).heldIds) :=
  ⟨by decide +kernel, by decide +kernel, ⟨admits _ _ _ (by decide), rfl⟩, ⟨admits _ _ _ (by decide), _, _, rfl⟩,
    ⟨admits _ _ _ (by decide), by decide +kernel, rfl, by decide⟩, ⟨admits _ _ _ (by decide), by decide⟩,
    ⟨admits _ _ _ (by decide), by decide⟩, ⟨admits _ _ _ (by decide +kernel), by decide +kernel, by decide +kernel⟩⟩

/-- Fifteen cues held and one more posted: the lane is full afterwards. -/
theorem witness_PostJoinsAndStages :
    let s := withQueue ((List.range 15).map fun i => held (BitVec.ofNat 8 (i + 10)) i) up
    parseCuePost ([0, 1] ++ nine) = .fields (.l0, [nineth]) ∧ s.Admits 7 ([0, 1] ++ nine) ∧
      (s.lane .l0).state = .idle ∧
      ((s.lane .l0).config.mode = .capture → ∀ c ∈ [nineth], c.reps = .count 1) ∧ ([nineth].map fun c => c.id).Nodup ∧
      (∀ c ∈ [nineth], c.id ∉ (s.lane .l0).heldIds) ∧ (s.lane .l0).heldCount + [nineth].length = 16 :=
  ⟨by decide +kernel, admits _ _ _ (by decide +kernel), by decide +kernel, by decide +kernel, by decide, by decide +kernel,
    by decide +kernel⟩

theorem witness_FlushRetiresWaitingCues :
    readLane 0 = some .l0 ∧ (waiting .idle .play).Admits 7 [0] ∧ ((waiting .idle .play).lane .l0).state ≠ .resetting :=
  ⟨rfl, admits _ _ _ (by decide), by decide⟩

theorem witness_ReportsCarryTheLaneAndGroup :
    (grouped .request .armed).Admits 7 [1] ∧ readLane 1 = some .l1 ∧
      ((grouped .request .armed).lane .l1).state ≠ .resetting ∧ readBit 1 = some true ∧ readGroup 1 = some .g1 :=
  ⟨admits _ _ _ (by decide), rfl, by decide, rfl, rfl⟩

theorem witness_ResettingLaneRefuses :
    readLane 0 = some .l0 ∧ (resetting.lane .l0).state = .resetting ∧ resetting.Admits 7 [0] ∧
      resetting.arrayState = .ready ∧ readStop 1 = some .atEnd ∧ resetting.Admits 7 [0, 1] ∧
      resetting.Admits 7 [0, 0, 0, 2, 0, 0, 0, 0, 0] ∧
      parseLaneConfig [0, 0, 0, 2, 0, 0, 0, 0, 0] = .fields
        { lane := .l0, mode := .play, clock := .internal 2, idleWord := 0, stall := none, dry := .stop, group := none } :=
  ⟨rfl, rfl, admits _ _ _ (by decide), rfl, rfl, admits _ _ _ (by decide), admits _ _ _ (by decide), by decide +kernel⟩

/-- The request of Table 11-1 with mode and stall policy as given. -/
def configured (m : Mode) (stall : Option StallPolicy) : ConfigRequest :=
  { lane := .l0, mode := m, clock := .internal 2, idleWord := 0x55, stall := stall, dry := .stop, group := none }

theorem witness_LaneConfigTakenOrRefused :
    parseLaneConfig [0, 0, 0, 2, 0, 0x55, 1, 0, 0] = .fields (configured .play (some .hold)) ∧
      parseLaneConfig [0, 1, 0, 2, 0, 0x55, 0, 0, 0] = .fields (configured .capture none) ∧
      parseLaneConfig [0, 1, 0, 2, 0, 0x55, 1, 0, 0] = .fields (configured .capture (some .hold)) ∧
      (∀ payload ∈ [[0, 0, 0, 2, 0, 0x55, 1, 0, 0], [0, 1, 0, 2, 0, 0x55, 0, 0, 0], [(0 : Byte), 1, 0, 2, 0, 0x55, 1, 0, 0]],
        up.Admits 7 payload ∧ (stocked 1 .play).Admits 7 payload ∧ (waiting .ready .play).Admits 7 payload) ∧
      ((waiting .ready .play).lane .l0).state.isStopped = false ∧ (up.lane .l0).state.isStopped = true ∧
      (Mode.capture ≠ ((stocked 1 .play).lane .l0).config.mode ∧ ((stocked 1 .play).lane .l0).heldCount ≠ 0) ∧
      ((up.lane .l0).heldCount = 0 ∧ (up.lane .l0).slotA ≠ .discarding ∧ (up.lane .l0).slotB ≠ .discarding) := by
  refine ⟨by decide +kernel, by decide +kernel, by decide +kernel, fun payload h => ?_, by decide, by decide, by decide,
    by decide⟩
  simp only [List.mem_cons, List.not_mem_nil, or_false] at h
  rcases h with rfl | rfl | rfl <;>
    exact ⟨admits _ _ _ (by decide), admits _ _ _ (by decide), admits _ _ _ (by decide)⟩

theorem witness_LaneStartPrimesAndStages :
    readLane 0 = some .l0 ∧ (waiting .idle .play).Admits 7 [0] ∧ (waiting .idle .play).arrayState = .ready ∧
      ((waiting .idle .play).lane .l0).state.isStopped = true ∧ ((waiting .idle .play).lane .l0).config.group = none ∧
      ((waiting .idle .play).lane .l0).slotA = .empty ∧ ((waiting .idle .play).lane .l0).slotB = .empty ∧
      ((waiting .idle .play).lane .l0).queue = [held 1 0, held 2 1] ∧
      { up with arrayState := .initialising }.Admits 7 [0] ∧ (waiting .ready .play).Admits 7 [0] ∧
      ((waiting .ready .play).lane .l0).state.isStopped = false :=
  ⟨rfl, admits _ _ _ (by decide), rfl, rfl, rfl, rfl, rfl, rfl, admits _ _ _ (by decide), admits _ _ _ (by decide), rfl⟩

/-- Staging by hand: nothing to move, slot A alone, slot B alone, one cue and two slots. -/
theorem witness_LaneStartPrimesAndStages_staging :
    let lane (a b : Slot) (q : List HeldCue) := (laneWith .running .play .hold a b q).lane .l0
    ((waiting .idle .play).lane .l0).state.stages = false ∧ (lane .empty .empty []).queue = [] ∧
      ((lane .discarding .discarding [held 1 0]).slotA ≠ .empty ∧ (lane .discarding .discarding [held 1 0]).slotB ≠ .empty) ∧
      (∀ q ∈ [[held 1 0], [held 1 0, held 2 1]],
        (lane .empty .discarding q).state.stages = true ∧ (lane .empty .discarding q).queue = q ∧
          (lane .empty .discarding q).slotB ≠ .empty ∧ (lane .discarding .empty q).slotA ≠ .empty) ∧
      (lane .empty .empty [held 1 0]).queue = [held 1 0] := by decide +kernel

theorem witness_StopNowHaltsTheLane :
    readLane 0 = some .l0 ∧
      (let s := playing (at' 3 true) .empty .hold .stop
       s.Admits 7 [0, 0] ∧ (s.lane .l0).state.canHalt = true ∧ (s.lane .l0).config.mode = .play) ∧
      (let s := capturing [0x21] (at' 3 true) .empty
       s.Admits 7 [0, 0] ∧ (s.lane .l0).state.canHalt = true ∧ (s.lane .l0).config.mode = .capture ∧
         ((s.lane .l0).slotA.afterHalt 1).owesCommit = true) ∧
      (let s := waiting .ready .capture
       s.Admits 7 [0, 0] ∧ (s.lane .l0).state.canHalt = true ∧ ((s.lane .l0).slotA.afterHalt 1).owesCommit = false ∧
         ((s.lane .l0).slotB.afterHalt 1).owesCommit = false) :=
  ⟨rfl, ⟨admits _ _ _ (by decide), rfl, rfl⟩, ⟨admits _ _ _ (by decide), rfl, rfl, rfl⟩,
    ⟨admits _ _ _ (by decide), rfl, rfl, rfl⟩⟩

theorem witness_StopNowHaltsTheLane_slots :
    ((at' 3 true).begun = true ∧ (at' 2 false).begun = false) ∧
      ((playing (at' 3 true) .empty .hold .stop).lane .l0).activeSlot = some .a ∧ (up.lane .l0).activeSlot = none := by
  decide +kernel

theorem witness_StopAtEndAndStopWithoutEffect_at_once :
    (∀ st ∈ [LaneState.priming, .ready, .stalled .dry, .stalled .underrun], (waiting st .play).Admits 7 [0, 1]) ∧
      (let s := (playing (at' 2 false) .empty .hold .stop).mapLane .l0 fun ln => { ln with awaitingFirstBeat := true }
       s.Admits 7 [0, 1] ∧ (s.lane .l0).state = .running ∧ (s.lane .l0).config.mode = .play ∧
         (s.lane .l0).awaitingFirstBeat = true) :=
  ⟨fun st h => admits _ _ _ ((by decide +kernel : ∀ st ∈ [LaneState.priming, .ready, .stalled .dry, .stalled .underrun],
      ((waiting st .play).resetn && decide (([0, 1] : List Byte).length ≤ 528) &&
        (waiting st .play).link.deviceReset.isNone && decide ((waiting st .play).placesHeld < 8) &&
        ((waiting st .play).entryOf 7).isNone) = true) st h),
    admits _ _ _ (by decide), rfl, rfl, rfl⟩

theorem witness_StopAtEndAndStopWithoutEffect :
    readLane 0 = some .l0 ∧ readStop 1 = some .atEnd ∧ readStop 0 = some .now ∧
      (let s := playing (at' 3 true) .empty .hold .stop
       s.Admits 7 [0, 1] ∧ (s.lane .l0).state = .running ∧ (s.lane .l0).awaitingFirstBeat = false) ∧
      (up.Admits 7 [0, 0] ∧ (up.lane .l0).state = .idle) ∧
      ((stocked 1 .play).Admits 7 [0, 0] ∧ ∃ r, ((stocked 1 .play).lane .l0).state = .halted r) :=
  ⟨rfl, rfl, rfl, ⟨admits _ _ _ (by decide), rfl, rfl⟩, ⟨admits _ _ _ (by decide), rfl⟩, admits _ _ _ (by decide), _, rfl⟩

theorem witness_LaneResetEndsOrWaits :
    readLane 0 = some .l0 ∧
      (let s := slotted (.loading (held 1 0))
       s.Admits 7 [0] ∧ (s.lane .l0).state ≠ .resetting ∧
         ((s.lane .l0).slotA.afterReset.holdsReset || (s.lane .l0).slotB.afterReset.holdsReset) = true) ∧
      (let s := slotted (.loaded (held 1 0) words res)
       s.Admits 7 [0] ∧ (s.lane .l0).state ≠ .resetting ∧
         ((s.lane .l0).slotA.afterReset.holdsReset || (s.lane .l0).slotB.afterReset.holdsReset) = false) :=
  ⟨rfl, ⟨admits _ _ _ (by decide), by decide, rfl⟩, ⟨admits _ _ _ (by decide), by decide, rfl⟩⟩

/-- Three operations wait behind one in flight. -/
def crowded : State := { busy (.host readOp res) up with hostWaiting := [readOp, readOp, readOp] }

theorem witness_RowRequestsJoinHostQueue :
    parseRowWrite [0, 5, 0, 255, 1, 1, 0, 0xAA] = .fields (.row 5, .write 511 [0xAA]) ∧
      parseRowRead [0, 5, 0, 0, 0, 0, 2] = .fields (.row 5, .read 0 512) ∧
      parseRowFill [1, 63, 0, 255, 1, 255, 1, 9] = .fields (.aliased 63, .fill 511 511 9) ∧
      (up.Admits 7 [0, 5, 0, 0, 0, 0, 2] ∧ up.arrayState = .ready ∧ up.hostDepth < 4) ∧
      (up.Admits 7 [0, 5, 0, 255, 1, 1, 0, 0xAA] ∧ up.Admits 7 [1, 63, 0, 255, 1, 255, 1, 9]) ∧
      (crowded.Admits 8 [0, 5, 0, 0, 0, 0, 2] ∧ crowded.arrayState = .ready ∧ crowded.hostDepth = 4) ∧
      { up with arrayState := .initialising }.Admits 7 [0, 5, 0, 0, 0, 0, 2] :=
  ⟨by decide +kernel, by decide +kernel, by decide +kernel, ⟨admits _ _ _ (by decide), rfl, by decide⟩,
    ⟨admits _ _ _ (by decide), admits _ _ _ (by decide)⟩, ⟨admits _ _ _ (by decide), rfl, rfl⟩, admits _ _ _ (by decide)⟩

theorem witness_AliasBindRaisesGeneration :
    (up.Admits 7 [63, 255, 7] ∧ ((63 : AliasNo).val = (63 : Byte).toNat ∧
      (2047 : Row).val = (255 : Byte).toNat + 256 * (7 : Byte).toNat)) ∧ (up.Admits 7 [64, 0, 0] ∧ 64 ≤ (64 : Byte).toNat) ∧
      (up.Admits 7 [63, 0, 8] ∧ 2048 ≤ (0 : Byte).toNat + 256 * (8 : Byte).toNat) :=
  ⟨⟨admits _ _ _ (by decide), by decide⟩, ⟨admits _ _ _ (by decide), by decide⟩, ⟨admits _ _ _ (by decide), by decide⟩⟩

/-- Alias 63 is bound. -/
def bound : State := up.setAlias 63 { row := some 5, generation := 255 }

theorem witness_AliasUnbindDropsTheRow :
    (bound.Admits 7 [63] ∧ (63 : AliasNo).val = (63 : Byte).toNat ∧ (bound.aliasAt 63).row ≠ none) ∧
      (up.Admits 7 [63] ∧ (up.aliasAt 63).row = none) ∧ (up.Admits 7 [64] ∧ 64 ≤ (64 : Byte).toNat) :=
  ⟨⟨admits _ _ _ (by decide), by decide, by decide +kernel⟩, ⟨admits _ _ _ (by decide), by decide +kernel⟩,
    ⟨admits _ _ _ (by decide), by decide⟩⟩

theorem witness_AliasQueryReportsTheEntry :
    (bound.Admits 7 [63] ∧ (63 : AliasNo).val = (63 : Byte).toNat) ∧ (up.Admits 7 [64] ∧ 64 ≤ (64 : Byte).toNat) :=
  ⟨⟨admits _ _ _ (by decide), by decide⟩, ⟨admits _ _ _ (by decide), by decide⟩⟩

theorem witness_GroupConfigOnlyWhileOpen :
    readGroup 1 = some .g1 ∧ readTrigger 2 = some .pinFall ∧ readBit 1 = some true ∧
      (up.Admits 7 [1, 2, 1] ∧ (up.group .g1).state = .opened) ∧
      ((grouped .request .armed).Admits 7 [1, 2, 1] ∧ ((grouped .request .armed).group .g1).state ≠ .opened) ∧
      (up.Admits 7 [3, 2, 1] ∧ readGroup 3 = none) ∧ (up.Admits 7 [1, 3, 1] ∧ readTrigger 3 = none) ∧
      (up.Admits 7 [1, 2, 2] ∧ readBit 2 = none) :=
  ⟨rfl, rfl, rfl, ⟨admits _ _ _ (by decide), rfl⟩, ⟨admits _ _ _ (by decide), by decide⟩,
    ⟨admits _ _ _ (by decide), rfl⟩, ⟨admits _ _ _ (by decide), rfl⟩, ⟨admits _ _ _ (by decide), rfl⟩⟩

theorem witness_GroupGoFiresAnArmedGroup :
    readGroup 1 = some .g1 ∧
      ((grouped .request .armed).Admits 7 [1] ∧ ((grouped .request .armed).group .g1).trigger = .request ∧
        ((grouped .request .armed).group .g1).state = .armed) ∧
      ((grouped .pinRise .armed).Admits 7 [1] ∧ ((grouped .pinRise .armed).group .g1).trigger ≠ .request) ∧
      (((grouped .request .armed).lane .l0).oldestSlot = some .a ∧
        ((grouped .request .armed).lane .l0).slot .a = .loaded (held 1 0) words res) ∧
      (let ln := (laneWith .ready .capture .drop .empty (.assigned (held 1 0)) []).lane .l0
       ln.oldestSlot = some .b ∧ ln.slot .b = .assigned (held 1 0)) :=
  ⟨rfl, ⟨admits _ _ _ (by decide), rfl, rfl⟩, ⟨admits _ _ _ (by decide), by decide⟩, ⟨rfl, rfl⟩, rfl, rfl⟩

theorem witness_GroupStopHaltsMembers :
    readGroup 1 = some .g1 ∧ (grouped .request .fired).Admits 7 [1] ∧
      (((grouped .request .fired).lane .l1).config.group = some .g1 ∧
        ((grouped .request .fired).lane .l1).state.canHalt = true ∧
        ((grouped .request .fired).lane .l1).config.mode = .play) ∧
      ((grouped .request .fired).lane .l2).config.group ≠ some .g1 :=
  ⟨rfl, admits _ _ _ (by decide), ⟨rfl, rfl, rfl⟩, by decide⟩

theorem witness_HaltTogetherReachesRunningMembers :
    let s := grouped .request .fired
    (s.lane .l0).config.group = some .g1 ∧ (s.group .g1).state = .fired ∧ (s.group .g1).haltTogether = true ∧
      (s.lane .l0).state.canHalt = true ∧ HaltReason.request ≠ .group ∧ s.cascades .l0 .request = some .g1 ∧
      (s.lane .l2).state.canHalt = false ∧ s.link.deviceReset = none ∧
      ((s.lane .l1).config.group = some .g1 ∧ (s.lane .l1).state.runsOrStalls = true) ∧
      ¬ ((s.lane .l2).config.group = some .g1 ∧ (s.lane .l2).state.runsOrStalls = true) := by decide +kernel

theorem witness_TrigEdgeReachesBothGroups :
    let s := grouped .pinRise .armed
    s.resetn = true ∧ s.link.deviceReset = none ∧ (true ≠ s.trigLevel ∧ 50 ≤ 50) ∧ (false = s.trigLevel ∨ 50 < 50) ∧
      (true = s.trigLevel ∨ 49 < 50) ∧ ((s.group .g1).trigger.waitsFor true = true ∧ (s.group .g1).state = .armed) ∧
      ((s.lane .l0).config.group = some .g1 ∧ (s.lane .l0).state = .ready) := by decide +kernel

theorem witness_GroupsFollowTheirMembers :
    ((grouped .request .armed).group .g1).state ≠ .fired ∧ ((grouped .request .fired).group .g1).state = .fired := by
  decide +kernel

theorem witness_BeatsComeFromTheClockSource :
    (up.resetn = true ∧ (up.lane .l0).config.clock = .internal 40) ∧
      (let s := up.mapLane .l0 fun ln => { ln with config := { ln.config with clock := .external } }
       s.resetn = true ∧ (s.lane .l0).config.clock = .external ∧ (s.lane .l0).lastEdge = none) ∧
      ((clocked 50).resetn = true ∧ ((clocked 50).lane .l0).config.clock = .external ∧
        ((clocked 50).lane .l0).lastEdge = some 0 ∧ 0 + 50 ≤ (clocked 50).now + 0 ∧ (clocked 45).now + 4 < 0 + 50) ∧
      (up.lane .l0).state = .idle ∧
      (((grouped .request .armed).lane .l0).state = .ready ∧ ((grouped .request .armed).lane .l0).config.group ≠ none) ∧
      (let ln := (laneWith (.stalled .dry) .play .hold .empty .empty []).lane .l0
       ln.state = .stalled .dry ∧ ln.slotA.isLoaded = false ∧ ln.slotB.isLoaded = false) ∧
      (let ln := (laneWith (.stalled .dry) .capture .drop .empty .empty []).lane .l0
       ln.state = .stalled .dry ∧ ln.config.mode = .capture) := by decide +kernel

/-- The hypotheses on a play lane whose slot A holds the word at the pointer. -/
theorem witness_PlayBeatPresentsTheNextWord :
    (let ln := (playing (at' 3 true) .empty .hold .stop).lane .l0
     ln.state = .running ∧ ln.config.mode = .play ∧ ln.activeSlot = some .a ∧
       ln.slot .a = .playing (held 1 0) words res (at' 3 true) ∧ (2 : Byte).toNat ≤ (3 : Byte).toNat ∧
       words[(3 : Byte).toNat - (2 : Byte).toNat]? = some 0x11 ∧ (3 : Byte).toNat < (4 : Byte).toNat) ∧
      (let ln := (playing { at' 4 true with repsLeft := .count 2 } .empty .hold .stop).lane .l0
       ln.state = .running ∧ ln.config.mode = .play ∧ ln.activeSlot = some .a ∧
         ln.slot .a = .playing (held 1 0) words res { at' 4 true with repsLeft := .count (0 + 2) } ∧
         words[(4 : Byte).toNat - (2 : Byte).toNat]? = some 0x12 ∧ ln.stopPending = false) ∧
      (let ln := (playing { at' 4 true with repsLeft := .continuous } .empty .hold .stop).lane .l0
       ln.state = .running ∧ ln.config.mode = .play ∧ ln.activeSlot = some .a ∧
         ln.slot .a = .playing (held 1 0) words res { at' 4 true with repsLeft := .continuous } ∧
         ln.stopPending = false ∧ (ln.slot .b).isLoaded = false) := by decide +kernel

theorem witness_StartAndResumeTakeTheBeat :
    let lane (st : LaneState) (stall : StallPolicy) :=
      (laneWith st .play stall (.loaded (held 1 0) words res) .empty []).lane .l0
    (∀ st ∈ [LaneState.ready, .stalled .dry, .stalled .underrun], ∀ stall ∈ [StallPolicy.hold, .skip],
      (lane st stall).config.mode = .play ∧ (lane st stall).slot .a = .loaded (held 1 0) words res ∧
        (lane st stall).activeSlot = none ∧ (lane st stall).config.group = none ∧
        (lane st stall).oldestSlot = some .a ∧ (lane st stall).oldestWhere Slot.isLoaded = some .a) ∧
      (let ln := (laneWith .ready .capture .drop .empty (.assigned (held 1 0)) []).lane .l0
       ln.state = .ready ∧ ln.config.mode = .capture ∧ ln.config.group = none ∧ ln.oldestSlot = some .b ∧
         ln.slot .b = .assigned (held 1 0) ∧ ln.activeSlot = none) := by decide +kernel

theorem witness_SpanEndRetiresAndSwitches :
    ∀ reps ∈ [Reps.count 1, .continuous],
      let p : Progress := { at' 4 true with repsLeft := reps }
      let ln := (playing p (.loaded (held 2 1) words res) .hold .stop).lane .l0
      ln.state = .running ∧ ln.config.mode = .play ∧ ln.activeSlot = some .a ∧
        ln.slot .a = .playing (held 1 0) words res p ∧ words[(4 : Byte).toNat - (2 : Byte).toNat]? = some 0x12 ∧
        ln.stopPending = false ∧ (held 1 0).record.haltAfter = false ∧
        ln.slot SlotName.a.other = .loaded (held 2 1) words res := by decide +kernel

/-- The hypotheses on a play lane whose slot A is at its last column with the word 12h. -/
def lastColumn (p : Progress) (s : State) : Bool :=
  let ln := s.lane .l0
  decide (ln.state = .running ∧ ln.config.mode = .play ∧ ln.activeSlot = some .a ∧ (2 : Byte).toNat ≤ p.pointer.toNat ∧
    words[p.pointer.toNat - (2 : Byte).toNat]? = some 0x12 ∧ (4 : Byte).toNat ≤ p.pointer.toNat)

theorem witness_PlayLaneRunsDry :
    (∀ reps ∈ [Reps.count 1, .count 2, .continuous],
      let p : Progress := { at' 4 true with repsLeft := reps }
      let s := (playing p (.loading (held 2 1)) .hold .stop).mapLane .l0 fun ln => { ln with stopPending := true }
      lastColumn p s = true ∧ (s.lane .l0).slot .a = .playing (held 1 0) words res p ∧ (s.lane .l0).stopPending = true) ∧
      (∀ x ∈ [(Reps.count 1, Slot.staged (held 2 1) 3), (.continuous, .loaded (held 2 1) words res)],
        let p : Progress := { at' 4 true with repsLeft := x.1 }
        let c : HeldCue := { held 1 0 with record := { cue 1 with haltAfter := true } }
        let s := (playing p x.2 .hold .stop).mapLane .l0 fun ln => { ln with slotA := .playing c words res p }
        lastColumn p s = true ∧ (s.lane .l0).slot .a = .playing c words res p ∧ (s.lane .l0).stopPending = false ∧
          c.record.haltAfter = true ∧ x.2.progress? = none) ∧
      (∀ dry ∈ [DryPolicy.wait, .stop],
        let s := playing (at' 4 true) .empty .hold dry
        let ln := s.lane .l0
        lastColumn (at' 4 true) s = true ∧ ln.slot .a = .playing (held 1 0) words res (at' 4 true) ∧
          ln.stopPending = false ∧ (held 1 0).record.haltAfter = false ∧ ln.slot SlotName.a.other = .empty ∧
          ln.queue = [] ∧ ln.config.dry = dry) := by decide +kernel

theorem witness_StallPolicyActsAtUnderrun :
    (∀ stall ∈ [StallPolicy.hold, .skip, .halt], ∀ dry ∈ [DryPolicy.wait, .stop],
      ∀ x ∈ [(Slot.staged (held 2 1) 3, []), (.loading (held 2 1), [held 3 2]), (.discarding, []), (.empty, [held 3 2])],
      let s := withQueue x.2 (playing (at' 4 true) x.1 stall dry)
      let ln := s.lane .l0
      lastColumn (at' 4 true) s = true ∧ ln.slot .a = .playing (held 1 0) words res (at' 4 true) ∧
        ln.stopPending = false ∧ (held 1 0).record.haltAfter = false ∧ ln.slot SlotName.a.other = x.1 ∧ ln.queue = x.2 ∧
        ln.config.stall = stall ∧ ln.config.dry = dry ∧ (x.1 = .empty → x.2 ≠ [])) ∧
      (let left (b : Slot) (q : List HeldCue) := ((laneWith (.stalled .underrun) .play .hold .empty b q).lane .l0).stage 1
       (left (.loading (held 2 1)) [held 3 2]).held ≠ [] ∧ (left .discarding []).held = [] ∧
         (left .empty [held 3 2]).held ≠ [] ∧ (left .empty []).held = []) := by decide +kernel

theorem witness_StalledBeatsAreCounted :
    (∀ a ∈ [Slot.loading (held 1 0), .staged (held 1 0) 5], ∀ q ∈ [[], [held 2 1]],
      let ln := (laneWith (.stalled .underrun) .play .hold a .discarding q).lane .l0
      ln.state = .stalled .underrun ∧ ln.config.mode = .play ∧ ln.slotA.isLoaded = false ∧ ln.slotB.isLoaded = false ∧
        ln.activeSlot = none ∧ ln.oldestWhere Slot.canBecomeActive = some .a ∧ ln.slot .a = a) ∧
      (∀ a ∈ [Slot.loading (held 1 0), .staged (held 1 0) 5],
        let ln := (laneWith (.stalled .underrun) .play .hold a (.loaded (held 2 1) words res) []).lane .l0
        ln.config.stall = .hold ∧ ln.oldestSlot = some .a ∧ (ln.slot .a).isLoaded = false ∧ ln.slotB.isLoaded = true ∧
          ln.oldestWhere Slot.canBecomeActive = some .a) ∧
      (∀ q ∈ [[], [held 2 1]],
        let ln := (laneWith (.stalled .underrun) .play .skip .discarding .discarding q).lane .l0
        ln.oldestWhere Slot.canBecomeActive = none ∧ ln.activeSlot = none ∧ ln.queue = q) ∧
      (∀ q ∈ [[], [held 3 2]],
        let ln := (laneWith (.stalled .overrun) .capture .drop committing committing q).lane .l0
        ln.state = .stalled .overrun ∧ ln.config.mode = .capture ∧ ln.slotA.owesCommit = true ∧
          ln.slotB.owesCommit = true ∧ ln.queue = q) := by decide +kernel

theorem witness_CaptureBeatTakesQualifiedWord :
    let ln := (capturing [0x21] (at' 3 true) .empty).lane .l0
    ln.state = .running ∧ ln.config.mode = .capture ∧ ln.activeSlot = some .a ∧
      ln.slot .a = .capturing (held 1 0) [0x21] (at' 3 true) ∧
      (held 1 0).record.tap.toNat + [(0x21 : Byte)].length = (3 : Byte).toNat ∧ (3 : Byte).toNat < (4 : Byte).toNat := by
  decide +kernel

theorem witness_CaptureSpanEndPlacesItsCommit :
    ∀ stop ∈ [true, false], ∀ ends ∈ [true, false], ∀ stall ∈ [StallPolicy.drop, .halt], ∀ dry ∈ [DryPolicy.wait, .stop],
      ∀ x ∈ [(Slot.assigned (held 2 1), []), (committing, [held 3 2]), (.empty, [held 3 2]), (.empty, [])],
      let c : HeldCue := { held 1 0 with record := { cue 1 with haltAfter := ends } }
      let s := (laneWith .running .capture stall (.capturing c [0x21, 0x22] (at' 4 true)) x.1 x.2).mapLane .l0 fun ln =>
        { ln with stopPending := stop, config := { ln.config with dry := dry } }
      let ln := s.lane .l0
      ln.state = .running ∧ ln.config.mode = .capture ∧ ln.activeSlot = some .a ∧
        ln.slot .a = .capturing c [0x21, 0x22] (at' 4 true) ∧
        c.record.tap.toNat + [(0x21 : Byte), 0x22].length = (4 : Byte).toNat ∧ (4 : Byte) = c.record.last ∧
        ln.stopPending = stop ∧ c.record.haltAfter = ends ∧ ln.slot SlotName.a.other = x.1 ∧ ln.queue = x.2 ∧
        ln.config.stall = stall ∧ ln.config.dry = dry := by decide +kernel

/-- L0's slot B claims a refill while slot A plays; L1 is PRIMING with a claim of its own. -/
def claiming (p : Progress) : State :=
  (playing p (.staged (held 2 1) 3) .hold .stop).mapLane .l1 fun ln =>
    { ln with state := .priming, slotA := .staged (held 8 0) 1 }

theorem witness_BestClaimHasLeastRunway :
    (claiming (at' 3 true)).bestClaim = some { lane := .l0, slot := .b, cue := held 2 1, age := 3 } ∧
      ((claiming (at' 3 true)).lane .l0).state = .running ∧ ((claiming (at' 3 true)).lane .l0).activeSlot = some .a ∧
      (((claiming (at' 3 true)).lane .l0).slot .a).cue? = some (held 1 0) ∧
      (((claiming (at' 3 true)).lane .l0).slot .a).progress? = some (at' 3 true) ∧ (at' 3 true).repsLeft = .count 1 ∧
      (((claiming { at' 3 true with repsLeft := .continuous }).lane .l0).slot .a).progress? =
        some { at' 3 true with repsLeft := .continuous } ∧ ((claiming (at' 3 true)).lane .l1).state = .priming ∧
      ((laneWith (.stalled .dry) .play .hold (.staged (held 1 0) 1) .empty []).lane .l0).state = .stalled .dry := by
  decide +kernel

theorem witness_SelectionGrantsByHostShare :
    (let s := { up with hostWaiting := [readOp] }
     s.port.inFlight = none ∧ s.laneClaims = [] ∧ s.resolve readOp.ref = some res) ∧
      (let s := { claiming (at' 3 true) with hostWaiting := [readOp], port := { inFlight := none, laneGrants := 3 } }
       s.port.inFlight = none ∧ 3 ≤ s.port.laneGrants ∧ s.resolve readOp.ref = some res) ∧
      (let s := { claiming (at' 3 true) with hostWaiting := [readOp], port := { inFlight := none, laneGrants := 2 } }
       s.bestClaim = some { lane := .l0, slot := .b, cue := held 2 1, age := 3 } ∧ s.port.laneGrants < 3 ∧
         (s.lane .l0).slot .b = .staged (held 2 1) 3 ∧ s.resolve (held 2 1).record.ref = some res) ∧
      (let s := slotted (.commitWait (held 1 0) words { first := 2, last := 4 } 1)
       s.bestClaim = some { lane := .l0, slot := .a, cue := held 1 0, age := 1 } ∧ s.hostWaiting = [] ∧
         (s.lane .l0).slot .a = .commitWait (held 1 0) words { first := 2, last := 4 } 1 ∧
         s.resolve (held 1 0).record.ref = some res) := by decide +kernel

/-- A lane claim and a host operation whose alias is unbound (R57, R58). -/
theorem witness_SelectionGrantsByHostShare_unbound :
    (let c : HeldCue := { held 1 0 with record := { cue 1 with ref := .aliased 63 } }
     let s := slotted (.staged c 1)
     s.port.inFlight = none ∧ s.bestClaim = some { lane := .l0, slot := .a, cue := c, age := 1 } ∧ s.hostWaiting = [] ∧
       s.resolve c.record.ref = none) ∧
      (∀ rest ∈ [[], [readOp]],
        let op : HostOp := { readOp with ref := .aliased 0 }
        let s := { opened 0x31 7 up with hostWaiting := op :: rest, port := { inFlight := none, laneGrants := 3 } }
        s.port.inFlight = none ∧ s.laneClaims = [] ∧ s.resolve op.ref = none ∧
          s.entryOf op.tag = some { tag := 7, code := 0x31, payload := [], state := .withOwner }) := by decide +kernel

theorem witness_RefillCompletionLoadsTheSpan :
    (let s := busy (.refill .l0 .a res) (slotted (.loading (held 1 0)))
     s.resetn = true ∧ s.link.deviceReset = none ∧
       s.port.inFlight = some { op := .refill .l0 .a res, grantedAt := 0 } ∧ (s.lane .l0).slot .a = .loading (held 1 0) ∧
       (held 1 0).record.tap.toNat ≤ (held 1 0).record.last.toNat) ∧
      (let s := busy (.refill .l0 .a res) (slotted .discarding)
       s.resetn = true ∧ s.link.deviceReset = none ∧
         s.port.inFlight = some { op := .refill .l0 .a res, grantedAt := 0 } ∧ (s.lane .l0).slot .a = .discarding) := by
  decide +kernel

/-- The lane states that the second part of the two completions tells apart. -/
theorem witness_RefillCompletionLoadsTheSpan_settled :
    ((slotted (.loaded (held 1 0) words res)).lane .l0).state = .priming ∧
      (let ln := (slotted (.loaded (held 1 0) words res)).lane .l0
       (ln.stage 1).oldestSlot = some .a) ∧
      ((slotted .empty).lane .l0).oldestSlot = none ∧
      (∀ dry ∈ [DryPolicy.wait, .stop], ∀ x ∈ [(Slot.loading (held 1 0), [held 1 0]), (.discarding, [])],
        let s := (laneWith (.stalled .underrun) .play .hold x.1 .discarding []).mapLane .l0 fun ln =>
          { ln with config := { ln.config with dry := dry } }
        let ln := (s.lane .l0).stage 1
        (s.lane .l0).config.mode = .play ∧ (s.lane .l0).state = .stalled .underrun ∧ ln.held = x.2 ∧ ln.config.dry = dry) ∧
      ((resetting.lane .l0).state = .resetting ∧ (resetting.lane .l0).slotA.holdsReset = true) ∧
      (let s := (up.mapLane .l0 fun ln => { ln with state := .resetting })
       (s.lane .l0).state = .resetting ∧ (s.lane .l0).slotA.holdsReset = false ∧ (s.lane .l0).slotB.holdsReset = false ∧
         s.link.table = []) ∧
      (let e : Entry := { tag := 7, code := 0x23, payload := [0], state := .withOwner }
       let s := { up with link := { up.link with table := [e] } }
       (s.link.table.find? fun x => decide (x.code = 0x23) && decide (x.payload = [laneByte .l0])) = some e ∧
         s.entryOf e.tag = some e) := by decide +kernel

theorem witness_CommitCompletionWritesItsRange_settled :
    (∀ cause ∈ [StallCause.overrun, .dry],
      let ln := (laneWith (.stalled cause) .capture .drop .empty .empty [held 1 0]).lane .l0
      ln.config.mode = .capture ∧ ln.state = .stalled cause ∧ (ln.stage 1).oldestWhere Slot.isAssigned = some .a ∧
        (ln.stage 1).slot .a = .assigned (held 1 0)) ∧
      (∀ dry ∈ [DryPolicy.wait, .stop], ∀ b ∈ [Slot.empty, committing],
        let s := (laneWith (.stalled .overrun) .capture .drop committing b []).mapLane .l0 fun ln =>
          { ln with config := { ln.config with dry := dry } }
        let ln := (s.lane .l0).stage 1
        (s.lane .l0).state = .stalled .overrun ∧ ln.oldestWhere Slot.isAssigned = none ∧ ln.slotB = b ∧
          ln.slotA.owesCommit = true ∧ ln.slotA.returned? = none ∧ ln.slotB.returned? = none ∧ ln.activeSlot = none ∧
          ln.config.dry = dry) ∧
      (let ln (a : Slot) := (laneWith (.ending .ended [2]) .capture .drop a .empty []).lane .l0
       (ln committing).state = .ending .ended [2] ∧ (ln committing).slotA.owesCommit = true ∧
         (ln .empty).slotA.owesCommit = false ∧ (ln .empty).slotB.owesCommit = false) := by decide +kernel

theorem witness_CommitCompletionWritesItsRange :
    ∀ cue ∈ [some (held 1 0), none],
      let s := busy (.commit .l0 .a res .upper) (slotted (.committing cue [0x21] { first := 255, last := 255 }))
      s.resetn = true ∧ s.link.deviceReset = none ∧ s.array.wf = true ∧
        s.port.inFlight = some { op := .commit .l0 .a res .upper, grantedAt := 0 } ∧
        (s.lane .l0).slot .a = .committing cue [0x21] { first := 255, last := 255 } ∧
        [(0x21 : Byte)].length = (255 : Byte).toNat - (255 : Byte).toNat + 1 := by decide +kernel

theorem witness_HostCompletionTakesEffect :
    ∀ kind ∈ [HostKind.write 510 [1, 2], .read 511 1, .fill 0 511 9],
      let op : HostOp := { tag := 7, ref := .row 5, kind := kind }
      let s := busy (.host op res) (opened 0x30 7 up)
      s.resetn = true ∧ s.link.deviceReset = none ∧ s.array.wf = true ∧ op.kind.inRow = true ∧
        s.entryOf op.tag = some { tag := 7, code := 0x30, payload := [], state := .withOwner } ∧
        s.port.inFlight = some { op := .host op res, grantedAt := 0 } := by decide +kernel

theorem witness_ClearCompletionMakesArrayReady :
    let s := busy .clear { up with arrayState := .initialising }
    (s.resetn = true ∧ s.link.deviceReset = none ∧ s.port.inFlight = some { op := .clear, grantedAt := 0 }) ∧
      (let d := busy .clear { inReset with arrayState := .initialising }
       d.resetn = true ∧ d.link.deviceReset = some 3 ∧
         d.entryOf 3 = some { tag := 3, code := 0x72, payload := [], state := .withOwner } ∧
         d.port.inFlight = some { op := .clear, grantedAt := 0 }) := by
  decide +kernel

/-- R106, R154: a device reset that waited for the clear ends first, so START stands ahead of ARRAY READY. -/
theorem test_arrayClearCompletion_ends_the_device_reset :
    let s := after .arrayClearCompletion (busy .clear { inReset with arrayState := .initialising })
    s.link.deviceReset = none ∧
      s.notices.entries.map (fun e => e.notice) = [.start .request .half, .arrayReady] := by decide +kernel

theorem witness_NoticeAckRemovesThroughTheNumber :
    noticed.resetn = true ∧ noticed.link.deviceReset = none ∧ noticed.notices.wf = true ∧
      (∃ before entry after, noticed.notices.entries = before ++ entry :: after ∧ entry.seq = 6) ∧
      (∀ entry ∈ noticed.notices.entries, entry.seq ≠ 7) ∧ (∀ entry ∈ noticed.notices.entries, entry.seq ≠ 3) ∧
      (inReset.resetn = true ∧ inReset.link.deviceReset ≠ none ∧ inReset.notices.entries = []) :=
  ⟨rfl, rfl, by decide +kernel,
    ⟨[{ seq := 4, notice := .arrayReady, sent := true }, { seq := 5, notice := .arrayReady, sent := false }],
      { seq := 6, notice := .arrayReady, sent := false }, [], rfl, rfl⟩, by decide +kernel, by decide +kernel,
    rfl, by decide, rfl⟩

theorem witness_NoticeResendMarksAllUnsent :
    noticed.Admits 40 [] ∧ (noticed.Admits 40 [0] ∧ ([0] : List Byte) ≠ []) ∧
      (inReset.Arrives [] ∧ inReset.link.deviceReset ≠ none) :=
  ⟨admits _ _ _ (by decide), ⟨admits _ _ _ (by decide), by decide⟩, ⟨rfl, by decide⟩, by decide⟩

/-- The receiver awaits the second CRC byte of an ECHO with tag 1 and no payload. -/
def lastByteDue (low : Byte) : State :=
  { up with link := { up.link with receiver :=
      { state := .check, remaining := 1, crc := crcOf [0x01, 1, 0x70, 0, 0], bytes := [0x01, 1, 0x70, 0, 0],
        checkLow := low, lineBlocked := false, lastStop := 0 } } }

theorem witness_DiscardCountsAndReports :
    (up.resetn = true ∧ up.link.deviceReset = none ∧ up.link.receiver.state = .hunting) ∧
      (inReset.resetn = true ∧ inReset.link.deviceReset ≠ none ∧ inReset.link.receiver.lineBlocked = false) ∧
      ((lastByteDue 0).resetn = true ∧ (lastByteDue 0).link.deviceReset = none ∧
        (lastByteDue 0).link.receiver.state ≠ .hunting) ∧
      ((inFrame 64000).resetn = true ∧ (inFrame 64000).link.receiver.state ≠ .hunting ∧
        (inFrame 64000).link.receiver.lastStop + 32 * (inFrame 64000).link.rate.bitNs = (inFrame 64000).now ∧
        (inFrame 63995).now < (inFrame 63995).link.receiver.lastStop + 32 * (inFrame 63995).link.rate.bitNs) ∧
      (up.link.receiver.lineBlocked = false ∧ blocked.resetn = true ∧ blocked.link.deviceReset = none ∧
        blocked.link.receiver.lineBlocked = true ∧ blocked.link.rate.bitNs ≤ 2000 ∧ 1999 < blocked.link.rate.bitNs) := by
  decide +kernel

theorem witness_EchoReturnsItsBytes : up.Admits 1 [] ∧ up.Admits 1 (List.replicate 528 0) :=
  ⟨admits _ _ _ (by decide), admits _ _ _ (by decide +kernel)⟩

theorem witness_DeviceStatusReportsAndClears :
    (readBit 0 = some false ∧ up.Admits 1 [0]) ∧ (readBit 1 = some true ∧ up.Admits 1 [1]) :=
  ⟨⟨rfl, admits _ _ _ (by decide)⟩, rfl, admits _ _ _ (by decide)⟩

theorem witness_DeviceResetWithPortFree :
    let s := opened 0x23 4 noticed
    s.Admits 7 [] ∧ (s.link.table.map fun e => e.tag).Nodup ∧ s.port.inFlight = none ∧
      ∀ l, (s.lane l).slotA.afterReset.holdsReset = false ∧ (s.lane l).slotB.afterReset.holdsReset = false :=
  ⟨admits _ _ _ (by decide), by decide, rfl, fun l => by cases l <;> exact ⟨rfl, rfl⟩⟩

theorem witness_DeviceResetWaitsForThePort :
    (let s := busy (.host readOp res) (opened 0x31 7 up)
     s.Admits 3 [] ∧ (s.link.table.map fun e => e.tag).Nodup ∧
       s.port.inFlight = some { op := .host readOp res, grantedAt := 0 }) ∧ up.link.deviceReset = none ∧
      (inReset.link.deviceReset = some 3 ∧
        inReset.entryOf 3 = some { tag := 3, code := 0x72, payload := [], state := .withOwner }) :=
  ⟨⟨admits _ _ _ (by decide), by decide, rfl⟩, rfl, rfl, rfl⟩

/-- A refill in flight, the reset's own lane waiting for it, and another open request. -/
theorem witness_DeviceResetWaitsForThePort_lane :
    ∀ a ∈ [Slot.loading (held 1 0), .discarding],
      let s := busy (.refill .l0 .a res) (opened 0x31 7 (slotted a))
      s.Admits 3 [] ∧ (s.link.table.map fun e => e.tag).Nodup ∧
        s.port.inFlight = some { op := .refill .l0 .a res, grantedAt := 0 } ∧ (s.lane .l0).slotA.afterReset.holdsReset = true := by
  intro a h
  simp only [List.mem_cons, List.not_mem_nil, or_false] at h
  rcases h with rfl | rfl <;> exact ⟨admits _ _ _ (by decide), by decide, rfl, rfl⟩

theorem witness_ReceiverKeepsTheFrame :
    up.link.receiver.state = .hunting ∧ ([] : List Byte).length ≤ 528 ∧ (List.replicate 528 (0 : Byte)).length ≤ 528 := by
  decide +kernel

theorem witness_CharactersMakeTheRequest :
    (up.resetn = true ∧ up.link.receiver.lineBlocked = false ∧ up.link.receiver.state = .hunting ∧
        (0xC2 : Byte) ≠ 0xC3) ∧
      (blocked.resetn = true ∧ blocked.link.receiver.lineBlocked = true ∧ 1999 < blocked.link.rate.bitNs ∧
        blocked.link.rate.bitNs ≤ 2000) ∧
      ((lastByteDue 0).resetn = true ∧ (lastByteDue 0).link.receiver.lineBlocked = false ∧
        (lastByteDue 0).link.receiver.state ≠ .hunting ∧ 64000 ≤ 32 * (lastByteDue 0).link.rate.bitNs ∧
        ¬ 64001 ≤ 32 * (lastByteDue 0).link.rate.bitNs) ∧
      (let s := lastByteDue (loByte (crcOf [0x01, 1, 0x70, 0, 0]).toNat)
       s.resetn = true ∧ s.link.receiver.state = .check ∧ s.link.receiver.remaining = 1 ∧
         s.link.receiver.bytes = [0x01, 1, 0x70] ++ fieldBytes ([] : List Byte).length ++ [] ∧
         s.link.receiver.checkLow.toNat + 256 * (hiByte (crcOf [0x01, 1, 0x70, 0, 0]).toNat).toNat =
           s.link.receiver.crc.toNat) ∧
      (lastByteDue 0).link.receiver.checkLow.toNat + 256 * (0 : Byte).toNat ≠ (lastByteDue 0).link.receiver.crc.toNat := by
  decide +kernel

/-- The receiver awaits the second CRC byte of a frame with this kind and payload, tag and code 0. -/
def judged (kind : Byte) (payload : List Byte) : State :=
  let bytes := [kind, 0, 0] ++ fieldBytes payload.length ++ payload
  { up with link := { up.link with receiver :=
      { state := .check, remaining := 1, crc := crcOf bytes, bytes := bytes, checkLow := loByte (crcOf bytes).toNat,
        lineBlocked := false, lastStop := 0 } } }

/-- A NOTICE ACK, one of length 2, a frame of the kind of a reply, and a header with a length of 529. -/
theorem witness_CharactersMakeTheRequest_other_ends :
    (∀ x ∈ [((0x02 : Byte), [(5 : Byte)]), (0x02, [5, 6]), (0x80, [])],
      let s := judged x.1 x.2
      s.link.receiver.state = .check ∧ s.link.receiver.remaining = 1 ∧
        s.link.receiver.bytes = [x.1, 0, 0] ++ fieldBytes x.2.length ++ x.2 ∧
        s.link.receiver.checkLow.toNat + 256 * (hiByte s.link.receiver.crc.toNat).toNat = s.link.receiver.crc.toNat) ∧
      (let s := up.setReceiver
        { state := .header, remaining := 1, crc := 0, bytes := [1, 7, 0x70, 0x11], checkLow := 0, lineBlocked := false,
          lastStop := 0 }
       s.resetn = true ∧ s.link.receiver.state = .header ∧ s.link.receiver.remaining = 1 ∧
         s.link.receiver.bytes = [1, 7, 0x70, 0x11] ∧ 528 < (0x11 : Byte).toNat + 256 * (2 : Byte).toNat) := by
  decide +kernel

/-- A reply waits, and so does a notice or none; the share of replies as given. -/
def talking (count : Nat) (s : State) : State :=
  { s with tx := { replies := [{ kind := .answer, tag := 1, code := 0x70, status := .ok, fields := .none }],
                   sending := none, replyCount := count } }

theorem witness_TransmitterChoosesByReplyShare :
    (after (.echo 1 []) up).tx.sending ≠ none ∧ (up.tx.sending = none ∧ up.tx.replies = [] ∧ up.notices.entries = []) ∧
      ((talking 4 up).tx.sending = none ∧ (talking 4 up).tx.replies ≠ [] ∧ (talking 4 up).notices.entries = []) ∧
      ((talking 3 noticed).tx.sending = none ∧ (talking 3 noticed).tx.replyCount < 4) ∧
      ((talking 4 noticed).tx.sending = none ∧ 4 ≤ (talking 4 noticed).tx.replyCount ∧
        (talking 4 noticed).notices.entries =
          [{ seq := 4, notice := .arrayReady, sent := true }] ++ { seq := 5, notice := .arrayReady, sent := false } ::
            [{ seq := 6, notice := .arrayReady, sent := false }]) ∧ (talking 4 noticed).resetn = true := by decide +kernel

/-- HTX in reset, without a frame, in the first and the last bit time of a character, and after the frame. -/
theorem witness_TransmitterChoosesByReplyShare_line :
    State.reset.resetn = false ∧ up.tx.sending = none ∧
      (∀ x ∈ [((1000 : Nat), (0 : Nat), (0 : Nat)), (20995, 0, 9), (21000, 1, 0), (40995, 1, 9)],
        let s := sendingAt x.1
        s.resetn = true ∧ s.tx.sending = some { frame := [0xC3, 0x01], startedAt := 1000 } ∧
          1000 + (x.2.1 * 10 + x.2.2) * s.link.rate.bitNs ≤ s.now ∧
          s.now < 1000 + (x.2.1 * 10 + x.2.2 + 1) * s.link.rate.bitNs) ∧
      1000 + 2 * 10 * (sendingAt 41000).link.rate.bitNs ≤ (sendingAt 41000).now := by decide +kernel

theorem witness_HardResetHoldsResetValues : State.reset.resetn = false ∧ Instr.idleExpiry ≠ .hardReset := by decide +kernel

theorem witness_ReleaseStartsTheClear : State.reset.resetn = false ∧ State.reset.link.deviceReset = none := by
  decide +kernel

/-- A fill to the end of row 5 completes at the next step. -/
def fillDue : State :=
  let s := busy (.host { tag := 7, ref := .row 5, kind := .fill 510 511 9 } res) (opened 0x32 7 up)
  { s with pending := [.hostOperationCompletion] }

theorem witness_StepKeepsArraySafe : fillDue.ArraySafe ∧ ∃ t, step fillDue = .next t :=
  ⟨⟨by decide +kernel, by decide +kernel, by intro f hf; cases hf; rfl⟩, _, rfl⟩

theorem witness_StepKeepsNoticeRun :
    { noticed with pending := [.noticeAck 5] }.notices.wf = true ∧ noticed.stalls = [] ∧
      ∃ t, step { noticed with pending := [.noticeAck 5] } = .next t :=
  ⟨by decide +kernel, rfl, _, rfl⟩

theorem witness_StepKeepsLinkLimits : fillDue.LinkSafe ∧ ∃ t, step fillDue = .next t :=
  ⟨⟨by decide +kernel, by decide +kernel, by decide +kernel, by decide +kernel⟩, _, rfl⟩

theorem witness_StepKeepsHostShare : fillDue.HostSafe ∧ ∃ t, step fillDue = .next t :=
  ⟨⟨by decide +kernel, by decide +kernel, fun _ => rfl, by decide +kernel⟩, _, rfl⟩

/-- The last word of L0's cue is due. -/
def lastWordDue : State :=
  { playing (at' 4 true) (.loaded (held 2 1) words res) .hold .stop with pending := [.dividerExpiry .l0 0 false] }

theorem witness_StepKeepsHeldCues : (∀ l, (lastWordDue.lane l).CuesSafe) ∧ ∃ t, step lastWordDue = .next t :=
  ⟨fun l => by cases l <;> exact ⟨by decide +kernel, by decide +kernel, by decide +kernel⟩, _, rfl⟩

theorem witness_StepKeepsOneActiveSlot : (∀ l, (lastWordDue.lane l).ActiveSafe) ∧ ∃ t, step lastWordDue = .next t :=
  ⟨fun l => by cases l <;> exact ⟨by decide +kernel, by decide +kernel⟩, _, rfl⟩

end Sys2Proof.Tests
end

section
/-! SUPPORT and the obligations of the ALIAS MAP: ALIAS BIND, ALIAS UNBIND and ALIAS QUERY (R113 to R117). -/

namespace Sys2Proof.Machine

open Sys2Proof

/-! ## Reading the number of an entry and a row -/

theorem readAlias_val {n : AliasNo} {k : Nat} (h : n.val = k) : readAlias k = some n := by
  subst h
  simp [readAlias]

theorem readAlias_eq_none {k : Nat} (h : 64 ≤ k) : readAlias k = none := by
  simp [readAlias, h]

theorem readRow_val {r : Row} {k : Nat} (h : r.val = k) : readRow k = some r := by
  subst h
  simp [readRow]

theorem readRow_eq_none {k : Nat} (h : 2048 ≤ k) : readRow k = none := by
  simp [readRow, h]

theorem parseAlias_fields {number : Byte} {n : AliasNo} (h : n.val = number.toNat) :
    parseAlias [number] = .fields n := by
  simp only [parseAlias, readAlias_val h, Parsed.ofOption]

theorem parseAlias_badField {number : Byte} (h : 64 ≤ number.toNat) : parseAlias [number] = .badField := by
  simp only [parseAlias, readAlias_eq_none h, Parsed.ofOption]

theorem parseAliasBind_fields {number lo hi : Byte} {n : AliasNo} {r : Row} (hn : n.val = number.toNat)
    (hr : r.val = pairNat lo hi) : parseAliasBind [number, lo, hi] = .fields (n, r) := by
  simp only [parseAliasBind, readAlias_val hn, readRow_val hr]

theorem parseAliasBind_badField {number lo hi : Byte} (h : 64 ≤ number.toNat ∨ 2048 ≤ pairNat lo hi) :
    parseAliasBind [number, lo, hi] = .badField := by
  rcases h with number_high | row_high
  · simp only [parseAliasBind, readAlias_eq_none number_high]
  · simp only [parseAliasBind, readRow_eq_none row_high]
    cases readAlias number.toNat <;> rfl

/-! ## The entries -/

@[simp] theorem State.aliasAt_keptOpen (s : State) (tag code : Byte) (payload : List Byte) (n : AliasNo) :
    (s.keptOpen tag code payload).aliasAt n = s.aliasAt n := rfl

@[simp] theorem State.aliasAt_replied (s : State) (tag code : Byte) (status : Status) (fields : ReplyFields)
    (n : AliasNo) : (s.replied tag code status fields).aliasAt n = s.aliasAt n := rfl

theorem State.setAlias_same (s : State) {n : AliasNo} {e : AliasEntry} (h : s.aliasAt n = e) : s.setAlias n e = s := by
  subst h
  simp [State.setAlias, State.aliasAt]

theorem State.resolve_bound (s : State) {n : AliasNo} {r : Row} (h : (s.aliasAt n).row = some r) :
    s.resolve (.aliased n) = some { row := r, generation := some (s.aliasAt n).generation } := by
  simp only [State.resolve, h]

theorem State.resolve_unbound (s : State) {n : AliasNo} (h : (s.aliasAt n).row = none) :
    s.resolve (.aliased n) = none := by
  simp only [State.resolve, h]

theorem AliasEntry.unbind_bound {e : AliasEntry} (h : e.row ≠ none) :
    e.unbind = { row := none, generation := e.generation + 1 } := by
  obtain ⟨r, hr⟩ := Option.ne_none_iff_exists'.mp h
  simp only [AliasEntry.unbind, hr, wrapInc]

theorem AliasEntry.unbind_unbound {e : AliasEntry} (h : e.row = none) : e.unbind = e := by
  simp only [AliasEntry.unbind, h]

/-- The owner's change for an admitted request: the entry is set, its answer handed over, and nothing else changes. -/
theorem State.rebind_keptOpen (s : State) (tag code : Byte) (payload : List Byte) (n : AliasNo) (entry : AliasEntry)
    (h : s.Admits tag payload) :
    (s.keptOpen tag code payload).rebind tag n entry =
      (s.replied tag code .ok (.aliasEntry n entry)).setAlias n entry := by
  rw [State.rebind, State.answer_opened s _ tag code payload .withOwner _ _ h rfl]
  rfl

/-! ## The three requests as events -/

theorem exec_aliasBind (tag : Byte) (payload : List Byte) (s : State) :
    exec (.aliasBind tag payload) s =
      s.happen fun s => s.receiveRequest tag 0x40 payload (dispatchTo parseAliasBind ownAliasBind) := rfl

theorem exec_aliasUnbind (tag : Byte) (payload : List Byte) (s : State) :
    exec (.aliasUnbind tag payload) s =
      s.happen fun s => s.receiveRequest tag 0x41 payload (dispatchTo parseAlias ownAliasUnbind) := rfl

theorem exec_aliasQuery (tag : Byte) (payload : List Byte) (s : State) :
    exec (.aliasQuery tag payload) s =
      s.happen fun s => s.receiveRequest tag 0x42 payload (dispatchTo parseAlias ownAliasQuery) := rfl

/-- An admitted ALIAS BIND with both fields in range: the bound entry, in the map and in the answer (R114). -/
theorem exec_aliasBind_fields {tag number lo hi : Byte} {s : State} {n : AliasNo} {r : Row}
    (h : s.Admits tag [number, lo, hi]) (hn : n.val = number.toNat) (hr : r.val = pairNat lo hi) :
    exec (.aliasBind tag [number, lo, hi]) s =
      .next ((s.replied tag 0x40 .ok (.aliasEntry n ((s.aliasAt n).bind r))).setAlias n
        ((s.aliasAt n).bind r)).transmit := by
  rw [exec_aliasBind, State.receive_fields s tag 0x40 _ _ _ (n, r) h (parseAliasBind_fields hn hr)]
  simp only [ownAliasBind, State.aliasAt_keptOpen, State.rebind_keptOpen s tag 0x40 _ _ _ h]

/-- An admitted ALIAS UNBIND with its number in range: the entry after the unbind, in the map and in the answer (R115). -/
theorem exec_aliasUnbind_fields {tag number : Byte} {s : State} {n : AliasNo} (h : s.Admits tag [number])
    (hn : n.val = number.toNat) :
    exec (.aliasUnbind tag [number]) s =
      .next ((s.replied tag 0x41 .ok (.aliasEntry n (s.aliasAt n).unbind)).setAlias n (s.aliasAt n).unbind).transmit := by
  rw [exec_aliasUnbind, State.receive_fields s tag 0x41 _ _ _ n h (parseAlias_fields hn)]
  simp only [ownAliasUnbind, State.aliasAt_keptOpen, State.rebind_keptOpen s tag 0x41 _ _ _ h]

/-! ## The obligations -/

/-- Settles O17: either both fields read or the answer is BAD FIELD, and the entry set is the one a selection finds. -/
theorem aliasBindRaisesGeneration : Obligations.AliasBindRaisesGeneration := by
  intro tag number lo hi s admits
  refine ⟨fun outOfRange => ?_, fun n r hn hr => ⟨exec_aliasBind_fields admits hn hr, ?_⟩⟩
  · rw [exec_aliasBind]
    exact State.receive_badField s tag 0x40 _ _ _ admits (parseAliasBind_badField outOfRange)
  · rw [State.resolve_bound (r := r) _ (by simp), State.aliasAt_setAlias_same]

/-- Settles O18, by the cases of the entry: BOUND, where the unbind changes it, and UNBOUND, where it is the same again. -/
theorem aliasUnbindDropsTheRow : Obligations.AliasUnbindDropsTheRow := by
  intro tag number s admits
  refine ⟨fun outOfRange => ?_, fun n hn isBound => ⟨?_, ?_⟩, fun n hn isUnbound => ⟨?_, s.resolve_unbound isUnbound⟩⟩
  · rw [exec_aliasUnbind]
    exact State.receive_badField s tag 0x41 _ _ _ admits (parseAlias_badField outOfRange)
  · rw [exec_aliasUnbind_fields admits hn, AliasEntry.unbind_bound isBound]
  · exact State.resolve_unbound _ (by simp)
  · rw [exec_aliasUnbind_fields admits hn, AliasEntry.unbind_unbound isUnbound,
      State.setAlias_same _ (State.aliasAt_replied ..)]

/-- Settles O19: the owner only answers, with the entry that the map held before. -/
theorem aliasQueryReportsTheEntry : Obligations.AliasQueryReportsTheEntry := by
  intro tag number s admits
  refine ⟨fun outOfRange => ?_, fun n hn => ?_⟩ <;> rw [exec_aliasQuery]
  · exact State.receive_badField s tag 0x42 _ _ _ admits (parseAlias_badField outOfRange)
  · rw [State.receive_fields s tag 0x42 _ _ _ n admits (parseAlias_fields hn)]
    simp only [ownAliasQuery, State.aliasAt_keptOpen, State.answer_keptOpen s tag 0x42 _ _ _ admits]

end Sys2Proof.Machine
end

section
/-! SUPPORT and the obligation of GROUP CONFIG (R119). -/

namespace Sys2Proof.Machine

open Sys2Proof

/-! ## Reading the three fields -/

theorem parseGroupConfig_fields {b t h : Byte} {g : GroupName} {trigger : TriggerSource} {together : Bool}
    (hg : readGroup b = some g) (ht : readTrigger t = some trigger) (hh : readBit h = some together) :
    parseGroupConfig [b, t, h] = .fields (g, trigger, together) := by
  simp only [parseGroupConfig, hg, ht, hh]

theorem parseGroupConfig_badField {b t h : Byte} (bad : readGroup b = none ∨ readTrigger t = none ∨ readBit h = none) :
    parseGroupConfig [b, t, h] = .badField := by
  rcases bad with noGroup | noTrigger | noBit
  · simp only [parseGroupConfig, noGroup]
  · simp only [parseGroupConfig, noTrigger]
    cases readGroup b <;> rfl
  · simp only [parseGroupConfig, noBit]
    cases readGroup b <;> cases readTrigger t <;> rfl

/-! ## The groups and the answer -/

@[simp] theorem State.group_keptOpen (s : State) (tag code : Byte) (payload : List Byte) (g : GroupName) :
    (s.keptOpen tag code payload).group g = s.group g := rfl

/-- The answer and a group's settings are apart: either may come first. -/
theorem State.answer_setGroup (s : State) (tag : Byte) (status : Status) (fields : ReplyFields) (g : GroupName)
    (x : Group) : (s.setGroup g x).answer tag status fields = (s.answer tag status fields).setGroup g x := by
  simp only [State.answer, State.entryOf_setGroup]
  cases s.entryOf tag <;> rfl

/-- An OPEN group takes the settings and stays OPEN, so its next value holds nothing of the one before (R119). -/
theorem ownGroupConfig_opened {e : Entry} {g : GroupName} {trigger : TriggerSource} {together : Bool} {s : State}
    (h : (s.group g).state = .opened) :
    ownGroupConfig e (g, trigger, together) s =
      (s.answer e.tag .ok .none).setGroup g
        { trigger := trigger, haltTogether := together, state := .opened } := by
  simp only [ownGroupConfig, h, if_true, State.answer_setGroup]

theorem ownGroupConfig_not_opened {e : Entry} {g : GroupName} {trigger : TriggerSource} {together : Bool} {s : State}
    (h : (s.group g).state ≠ .opened) :
    ownGroupConfig e (g, trigger, together) s = s.answer e.tag .wrongState .none := by
  simp only [ownGroupConfig, h, if_false]

/-! ## The request as an event -/

theorem exec_groupConfig (tag : Byte) (payload : List Byte) (s : State) :
    exec (.groupConfig tag payload) s =
      s.happen fun s => s.receiveRequest tag 0x50 payload (dispatchTo parseGroupConfig ownGroupConfig) := rfl

/-- Settles O20: a field out of its encoding never reaches the owner, which then decides by the group's state alone. -/
theorem groupConfigOnlyWhileOpen : Obligations.GroupConfigOnlyWhileOpen := by
  intro tag b t h s admits
  refine ⟨fun bad => ?_, fun g trigger together hg ht hh => ?_⟩
  · rw [exec_groupConfig]
    exact State.receive_badField s tag 0x50 _ _ _ admits (parseGroupConfig_badField bad)
  · rw [exec_groupConfig, State.receive_fields s tag 0x50 _ _ _ _ admits (parseGroupConfig_fields hg ht hh)]
    refine ⟨fun isOpen => ?_, fun notOpen => ?_⟩
    · rw [ownGroupConfig_opened (by simpa using isOpen), State.answer_keptOpen s tag 0x50 _ _ _ admits]
    · rw [ownGroupConfig_not_opened (by simpa using notOpen), State.answer_keptOpen s tag 0x50 _ _ _ admits]

end Sys2Proof.Machine
end

section
/-! SUPPORT and the obligation of NOTICE RESEND (R134). -/

namespace Sys2Proof.Machine

open Sys2Proof

/-! ## Arrival in a device reset (R144) -/

/-- The refusal reply and the statements' name for it are the same. -/
theorem State.refuse_eq_refused (s : State) (tag code : Byte) (status : Status) :
    s.refuse tag code status = s.refused tag code status := rfl

/-- The first check of R144: in a device reset every request is refused NOT READY, whatever its tag and its payload. -/
theorem State.receive_deviceReset (s : State) (tag code : Byte) (payload : List Byte) (serve : Service)
    (arrives : s.Arrives payload) (h : s.link.deviceReset ≠ none) :
    s.happen (fun s => s.receiveRequest tag code payload serve) =
      .next (s.heard.refused tag code .notReady).transmit := by
  have inReset : s.heard.link.deviceReset.isSome = true := Option.isSome_iff_ne_none.mpr h
  rw [State.happen_high s _ arrives.resetn]
  simp only [State.receiveRequest, arrives.fits, if_true, State.hunt_nextEvent, State.arrive, inReset,
    State.refuse_eq_refused]

/-! ## The payload and the owner -/

theorem parseNothing_malformed {payload : List Byte} (h : payload ≠ []) : parseNothing payload = .malformed := by
  cases payload with
  | nil => exact absurd rfl h
  | cons b bs => rfl

/-- The owner of an admitted NOTICE RESEND: the held entries become UNSENT and the answer is OK (R134). -/
theorem ownNoticeResend_keptOpen (s : State) (e : Entry) (code : Byte) (payload : List Byte)
    (h : s.Admits e.tag payload) :
    ownNoticeResend e () (s.keptOpen e.tag code payload) =
      { s.replied e.tag code .ok .none with notices := s.notices.unsend } := by
  rw [ownNoticeResend, State.answer_opened s _ e.tag code payload .withOwner _ _ h rfl]
  rfl

/-! ## The request as an event -/

theorem exec_noticeResend (tag : Byte) (payload : List Byte) (s : State) :
    exec (.noticeResend tag payload) s =
      s.happen fun s => s.receiveRequest tag 0x60 payload (dispatchTo parseNothing ownNoticeResend) := rfl

/-- Settles O43, by the request's three ends: the owner's change, the payload's refusal, and the refusal at arrival. -/
theorem noticeResendMarksAllUnsent : Obligations.NoticeResendMarksAllUnsent := by
  intro s tag payload
  refine ⟨fun admits => ?_, fun admits nonempty => ?_, fun arrives inReset => ?_⟩ <;> rw [exec_noticeResend]
  · rw [State.receive_fields s tag 0x60 [] _ _ () admits rfl,
      ownNoticeResend_keptOpen s ⟨tag, 0x60, [], .received⟩ 0x60 [] admits]
    rfl
  · exact State.receive_malformed s tag 0x60 payload _ _ admits (parseNothing_malformed nonempty)
  · exact State.receive_deviceReset s tag 0x60 payload _ arrives inReset

end Sys2Proof.Machine
end

section
/-! SUPPORT and the obligation of ECHO (R150). -/

namespace Sys2Proof.Machine

open Sys2Proof

/-- No payload of ECHO is malformed: all its bytes are the one field (R150). -/
theorem parseEcho_fields (payload : List Byte) : parseEcho payload = .fields payload := rfl

/-- The owner of an admitted ECHO answers with the bytes it was given, and the state is otherwise as it was (R150). -/
theorem ownEcho_keptOpen (s : State) (e : Entry) (code : Byte) (payload bytes : List Byte)
    (h : s.Admits e.tag payload) :
    ownEcho e bytes (s.keptOpen e.tag code payload) = s.replied e.tag code .ok (.echo bytes) := by
  rw [ownEcho, State.answer_keptOpen s e.tag code payload _ _ h]

/-! ## The request as an event -/

theorem exec_echo (tag : Byte) (payload : List Byte) (s : State) :
    exec (.echo tag payload) s =
      s.happen fun s => s.receiveRequest tag 0x70 payload (dispatchTo parseEcho ownEcho) := rfl

/-- Settles O45: the checks of the request pass for every payload, and its owner answers with the payload itself. -/
theorem echoReturnsItsBytes : Obligations.EchoReturnsItsBytes := by
  intro tag payload s admits
  rw [exec_echo, State.receive_fields s tag 0x70 payload _ _ payload admits (parseEcho_fields payload),
    ownEcho_keptOpen s ⟨tag, 0x70, payload, .received⟩ 0x70 payload payload admits]

end Sys2Proof.Machine
end

section
/-! SUPPORT. One walk through the operations of an event, for any property that its parts keep. -/

namespace Sys2Proof.Machine

open Sys2Proof

/-! ## Lane updates that keep the invariants of a lane -/

/-- Cues that a lane lets go, moves or counts on leave its cue invariant as it was: the records are what it speaks of. -/
theorem Lane.CuesSafe.of_records {ln x : Lane} (h : ln.CuesSafe) (mode : x.config.mode = ln.config.mode)
    (records : (x.held.map HeldCue.record).Subperm (ln.held.map HeldCue.record)) : x.CuesSafe := by
  have ids (y : Lane) : y.heldIds = (y.held.map HeldCue.record).map Cue.id := by
    simp [Lane.heldIds, Function.comp_def]
  refine ⟨?_, ?_, ?_⟩
  · have fewer := records.length_le
    simp only [List.length_map] at fewer
    exact fewer.trans h.count
  · have distinct := h.ids
    rw [ids] at distinct ⊢
    obtain ⟨kept, perm, sub⟩ := records
    exact (perm.map Cue.id).nodup_iff.mp ((sub.map Cue.id).nodup distinct)
  · intro capture c hc
    obtain ⟨d, hd, same⟩ := List.mem_map.mp (records.subset (List.mem_map_of_mem hc))
    rw [← same]
    exact h.suits (mode ▸ capture) d hd

theorem Lane.activeSlot_eq_none (ln : Lane) :
    ln.activeSlot = none ↔ ln.slotA.progress? = none ∧ ln.slotB.progress? = none := by
  unfold Lane.activeSlot
  cases ln.slotA.progress? <;> cases ln.slotB.progress? <;> simp

/-- The active slot is a slot with progress (R25). -/
theorem Lane.progress_of_activeSlot {ln : Lane} {n : SlotName} (h : ln.activeSlot = some n) :
    (ln.slot n).progress?.isSome = true := by
  unfold Lane.activeSlot at h
  split at h
  · next hA => cases h; exact hA
  · split at h
    · next hB => cases h; exact hB
    · cases h

/-- Without an ACTIVE slot there is nothing to keep. -/
theorem Lane.ActiveSafe.of_none {ln : Lane} (h : ln.activeSlot = none) : ln.ActiveSafe := by
  have hA := ((Lane.activeSlot_eq_none ln).mp h).1
  exact ⟨fun hs => by simp [hA] at hs, fun _ => h⟩

/-- A RUNNING lane may have one slot ACTIVE. -/
theorem Lane.ActiveSafe.of_running {ln : Lane} (n : SlotName) (running : ln.state = .running)
    (other : (ln.slot n.other).progress? = none) : ln.ActiveSafe := by
  refine ⟨fun hA => ?_, fun hs => absurd running hs⟩
  cases n
  · simpa [Lane.slot, SlotName.other] using congrArg Option.isSome other
  · simp [show ln.slotA.progress? = none from other] at hA

/-- No slot has become ACTIVE. -/
theorem Lane.ActiveSafe.of_fewer {ln x : Lane} (h : ln.ActiveSafe) (state : x.state ≠ .running → ln.state ≠ .running)
    (slots : ∀ n, (x.slot n).progress?.isSome = true → (ln.slot n).progress?.isSome = true) : x.ActiveSafe := by
  have none_of {n} (hn : (ln.slot n).progress? = none) : (x.slot n).progress? = none := by
    by_contra hx
    have := slots n (Option.isSome_iff_ne_none.mpr hx)
    simp [hn] at this
  refine ⟨fun hA => ?_, fun hs => ?_⟩
  · have hB := h.one (slots .a hA)
    exact Option.isSome_eq_false_iff.mpr (Option.isNone_iff_eq_none.mpr (none_of (n := .b)
      (Option.isNone_iff_eq_none.mp (Option.isSome_eq_false_iff.mp hB))))
  · have both := (Lane.activeSlot_eq_none ln).mp (h.running (state hs))
    exact (Lane.activeSlot_eq_none x).mpr ⟨none_of (n := .a) both.1, none_of (n := .b) both.2⟩

/-- The other slot is not ACTIVE, and the lane is RUNNING (R36, R89). -/
theorem Lane.ActiveSafe.other {ln : Lane} {n : SlotName} (h : ln.ActiveSafe) (active : ln.activeSlot = some n) :
    ln.state = .running ∧ (ln.slot n.other).progress? = none := by
  refine ⟨?_, ?_⟩
  · by_contra hs
    rw [h.running hs] at active
    cases active
  · have some_n := Lane.progress_of_activeSlot active
    by_contra ho
    have some_o := Option.isSome_iff_ne_none.mpr ho
    cases n
    · have := h.one some_n
      rw [show ln.slotB.progress?.isSome = true from some_o] at this
      cases this
    · have := h.one some_o
      rw [show ln.slotB.progress?.isSome = true from some_n] at this
      cases this

/-- An update of a lane that keeps the invariant of its cues, and, where `A` holds, that of its ACTIVE slot. -/
structure Lane.Keeps (A : Prop) (ln x : Lane) : Prop where
  cues : ln.CuesSafe → x.CuesSafe
  active : A → ln.ActiveSafe → x.ActiveSafe

section
variable {A : Prop}

theorem Lane.Keeps.refl (ln : Lane) : ln.Keeps A ln := ⟨id, fun _ => id⟩

theorem Lane.Keeps.trans {x y z : Lane} (h : x.Keeps A y) (k : y.Keeps A z) : x.Keeps A z :=
  ⟨k.cues ∘ h.cues, fun a => k.active a ∘ h.active a⟩

/-- An update that keeps the mode and lets cues go at most. -/
theorem Lane.Keeps.of_held {ln x : Lane} (mode : x.config.mode = ln.config.mode) (held : x.held.Subperm ln.held)
    (active : A → ln.ActiveSafe → x.ActiveSafe) : ln.Keeps A x :=
  ⟨fun h => h.of_records mode (by
    obtain ⟨kept, perm, sub⟩ := held
    exact ⟨_, perm.map HeldCue.record, sub.map HeldCue.record⟩), active⟩

/-- An update that touches neither mode, slots nor queue, of a lane that does not leave RUNNING. -/
theorem Lane.Keeps.of_state {ln x : Lane} (mode : x.config.mode = ln.config.mode)
    (state : x.state ≠ .running → ln.state ≠ .running) (slotA : x.slotA = ln.slotA) (slotB : x.slotB = ln.slotB)
    (queue : x.queue = ln.queue) : ln.Keeps A x := by
  have slots (n : SlotName) : x.slot n = ln.slot n := by cases n <;> assumption
  refine Lane.Keeps.of_held mode ?_ fun _ h => h.of_fewer state fun n => by rw [slots]; exact id
  simp only [Lane.held, Lane.slotCues, slotA, slotB, queue]
  exact List.Subperm.refl _

/-- An update that lets cues go at most and leaves no slot ACTIVE. -/
theorem Lane.Keeps.of_inactive {ln x : Lane} (mode : x.config.mode = ln.config.mode) (held : x.held.Subperm ln.held)
    (active : A → x.activeSlot = none) : ln.Keeps A x :=
  Lane.Keeps.of_held mode held fun a _ => .of_none (active a)

/-- A slot put in the place of one with the same cue that is ACTIVE where it is. -/
theorem Lane.Keeps.setSlot (ln : Lane) (n : SlotName) (x : Slot)
    (cue : x.cue?.toList.Sublist (ln.slot n).cue?.toList)
    (progress : x.progress?.isSome = true → (ln.slot n).progress?.isSome = true) : ln.Keeps A (ln.setSlot n x) := by
  refine Lane.Keeps.of_held (by simp) ?_ fun _ h => h.of_fewer (by simp) fun m => ?_
  · cases n
    · exact ((cue.append_right _).append_right _).subperm
    · exact ((cue.append_left _).append_right _).subperm
  · cases n <;> cases m
    exacts [progress, id, id, progress]

/-- An emptied slot. -/
theorem Lane.Keeps.setSlot_none (ln : Lane) (n : SlotName) (x : Slot) (cue : x.cue? = none) (progress : x.progress? = none) :
    ln.Keeps A (ln.setSlot n x) :=
  Lane.Keeps.setSlot ln n x (by simp [cue]) (by simp [progress])

/-- Staging makes no slot ACTIVE. -/
theorem Lane.slot_stageHead_progress (age : Nat) (ln : Lane) (n : SlotName) :
    ((ln.stageHead age).slot n).progress? = (ln.slot n).progress? := by
  have staged (c : HeldCue) : (ln.stagedSlot c age).progress? = none := by
    unfold Lane.stagedSlot
    split <;> rfl
  have empty {x : Slot} (h : x.isEmpty = true) : x.progress? = none := by
    cases x with
    | empty => rfl
    | _ => cases h
  unfold Lane.stageHead
  split
  · split
    · next c q m _ hm =>
      unfold Lane.emptySlot at hm
      split at hm
      · next hA => cases hm; cases n <;> simp [Lane.setSlot, Lane.slot, staged, empty hA]
      · split at hm
        · next hB => cases hm; cases n <;> simp [Lane.setSlot, Lane.slot, staged, empty hB]
        · cases hm
    · rfl
  · rfl

@[simp] theorem Lane.stageHead_config (age : Nat) (ln : Lane) : (ln.stageHead age).config = ln.config := by
  rw [Lane.stageHead_frame]

@[simp] theorem Lane.stageHead_state (age : Nat) (ln : Lane) : (ln.stageHead age).state = ln.state := by
  rw [Lane.stageHead_frame]

theorem Lane.Keeps.stageHead (age : Nat) (ln : Lane) : ln.Keeps A (ln.stageHead age) :=
  Lane.Keeps.of_held (by simp) (Lane.held_stageHead age ln) fun _ h =>
    h.of_fewer (by simp) fun n => by rw [Lane.slot_stageHead_progress]; exact id

theorem Lane.Keeps.stage (age : Nat) (ln : Lane) : ln.Keeps A (ln.stage age) :=
  (Lane.Keeps.stageHead age ln).trans (Lane.Keeps.stageHead age _)

theorem Lane.Keeps.thenStage {ln x : Lane} (age : Nat) (h : ln.Keeps A x) : ln.Keeps A (x.stage age) :=
  h.trans (Lane.Keeps.stage age x)

/-- A stop leaves no slot ACTIVE. -/
theorem Lane.Keeps.stopIn (ln : Lane) (st : LaneState) (age : Nat) : ln.Keeps A (ln.stopIn st age) :=
  Lane.Keeps.of_held rfl (Lane.held_stopIn ln st age) fun _ _ =>
    .of_none ((Lane.activeSlot_eq_none _).mpr ⟨Slot.progress_afterHalt _ _, Slot.progress_afterHalt _ _⟩)

theorem Lane.Keeps.halted (ln : Lane) (age : Nat) (reason : HaltReason) : ln.Keeps A (ln.halted age reason) := by
  unfold Lane.halted
  split
  · split
    · exact Lane.Keeps.stopIn ln _ age
    · split <;> exact Lane.Keeps.stopIn ln _ age
  · exact Lane.Keeps.refl ln

/-- A lane that holds nothing, with no slot ACTIVE. -/
theorem Lane.Keeps.of_nothing {ln x : Lane} (held : x.held = []) (active : x.activeSlot = none) : ln.Keeps A x :=
  ⟨fun _ => ⟨by simp [Lane.heldCount, held], by simp [Lane.heldIds, held], by simp [held]⟩, fun _ _ => .of_none active⟩

/-- The slot that becomes ACTIVE is the only one, on a RUNNING lane. -/
theorem Lane.activate_slot_other (ln : Lane) (n : SlotName) : (ln.activate n).slot n.other = ln.slot n.other := by
  unfold Lane.activate
  split <;> cases n <;> rfl

@[simp] theorem Lane.activate_state (ln : Lane) (n : SlotName) : (ln.activate n).state = ln.state := by
  unfold Lane.activate
  split <;> simp

@[simp] theorem Lane.activate_config (ln : Lane) (n : SlotName) : (ln.activate n).config = ln.config := by
  unfold Lane.activate
  split <;> simp

@[simp] theorem Lane.activeSlot_stage (age : Nat) (ln : Lane) : (ln.stage age).activeSlot = ln.activeSlot := by
  have same (n : SlotName) : ((ln.stage age).slot n).progress? = (ln.slot n).progress? := by
    rw [Lane.stage, Lane.slot_stageHead_progress, Lane.slot_stageHead_progress]
  unfold Lane.activeSlot
  rw [show (ln.stage age).slotA.progress? = _ from same .a, show (ln.stage age).slotB.progress? = _ from same .b]
  rfl

theorem Lane.Keeps.activate {ln : Lane} {n : SlotName} (running : ln.state = .running)
    (other : (ln.slot n.other).progress? = none) : ln.Keeps A (ln.activate n) :=
  Lane.Keeps.of_held (by simp) (by simp [List.Subperm.refl]) fun _ _ =>
    .of_running n (by simpa using running) (by simpa [Lane.activate_slot_other] using other)

/-- A lane that was not RUNNING starts with one slot ACTIVE. -/
theorem Lane.Keeps.run {ln : Lane} (n : SlotName) (stopped : ln.state ≠ .running) : ln.Keeps A (ln.run n) := by
  refine Lane.Keeps.of_held (by simp [Lane.run]) (by simp [List.Subperm.refl]) fun _ h => .of_running n rfl ?_
  have both := (Lane.activeSlot_eq_none ln).mp (h.running stopped)
  show ((ln.activate n).slot n.other).progress? = none
  rw [Lane.activate_slot_other]
  cases n
  · exact both.2
  · exact both.1

end

end Sys2Proof.Machine
end

section
/-! SUPPORT. One walk through the operations of an event, for any property of the state that its parts keep. -/

namespace Sys2Proof.Machine

open Sys2Proof

/-- The pieces of the state that an invariant of a run may speak of. -/
def State.watched (s : State) :=
  (s.array, s.port, s.hostWaiting, s.hostClaimAge, s.lanes, s.notices, s.stalls, s.link.table, s.tx.replies,
    s.tx.replyCount)

/-- The property holds of no state in which a lane's ACTIVE slot breaks its invariant. -/
def TracksActive (P : State → Prop) : Prop := ∀ s, P s → ∀ l, (s.lane l).ActiveSafe

/-- The settings of R152, steps 2 to 6: what a device reset makes of the part once the open requests are answered. -/
def State.defaults (s : State) (tag : Byte) : State :=
  { s with
    hostWaiting := []
    hostClaimAge := none
    port := { s.port with laneGrants := 0 }
    lanes := s.lanes.map (Lane.deviceReset s.now)
    groups := { g1 := Group.reset, g2 := Group.reset }
    aliases := Vector.replicate 64 { row := none, generation := 0 }
    notices := { entries := [], nextSeq := 0, lost := 0 }
    link := { s.link.clearCounters with deviceReset := some tag } }

theorem State.takeDeviceReset_eq (s : State) (tag : Byte) :
    s.takeDeviceReset tag = (s.abortAll (s.abortedTags tag)).defaults tag := rfl

/-- The host array queue once the operation at its head has left it without a grant (R58). -/
def State.leaveHost (s : State) (rest : List HostOp) : State :=
  { s with
    hostWaiting := rest, hostClaimAge := s.nextHostAge rest
    port := { s.port with laneGrants := if rest.isEmpty then 0 else s.port.laneGrants } }

theorem State.dropHost_eq (s : State) (op : HostOp) (rest : List HostOp) :
    s.dropHost op rest = (s.leaveHost rest).answer op.tag .unbound .none := rfl

/-- The host array queue with a further operation at its tail (R147, R46). -/
def State.joinHost (s : State) (op : HostOp) : State :=
  { s with
    hostWaiting := s.hostWaiting ++ [op]
    hostClaimAge := if s.hostWaiting.isEmpty then some s.event else s.hostClaimAge }

/-- A property that each part of an event keeps. -/
structure State.Kept (P : State → Prop) : Prop where
  alike : ∀ {s t : State}, t.watched = s.watched → P s → P t
  setLane : ∀ {s : State} (l : LaneId) {x : Lane}, (s.lane l).Keeps (TracksActive P) x → P s → P (s.setLane l x)
  offer : ∀ {s : State} (n : Notice), P s → P (s.offer n)
  unsend : ∀ {s : State}, P s → P { s with notices := s.notices.unsend }
  acknowledge : ∀ {s : State} (seq : Byte), P s → P (s.acknowledge seq)
  answer : ∀ {s : State} (tag : Byte) (status : Status) (fields : ReplyFields), P s → P (s.answer tag status fields)
  refuse : ∀ {s : State} (tag code : Byte) (status : Status), P s → P (s.refuse tag code status)
  enter : ∀ {s : State} (e : Entry), s.placesHeld < 8 → s.entryOf e.tag = none → P s →
    P { s with link := { s.link with table := s.link.table ++ [e] } }
  handToOwner : ∀ {s : State} (tag : Byte), P s → P (s.handToOwner tag)
  transmit : ∀ {s : State}, P s → P s.transmit
  defaults : ∀ {s : State} (tag : Byte), P s → P (s.defaults tag)
  joinHost : ∀ {s : State} (op : HostOp), s.hostDepth < 4 → op.kind.inRow = true → P s → P (s.joinHost op)
  leaveHost : ∀ {s : State} (op : HostOp) (rest : List HostOp), s.hostWaiting = op :: rest → P s → P (s.leaveHost rest)
  grantHost : ∀ {s : State} (op : HostOp) (rest : List HostOp) (res : Resolution), s.port.inFlight = none →
    s.hostWaiting = op :: rest → P s → P (s.grantHost op rest res)
  grantLane : ∀ {s : State} (c : LaneClaim) (res : Resolution), s.port.inFlight = none →
    (s.hostWaiting = [] ∨ s.port.laneGrants < 3) → P s → P (s.grantLane c res)
  freePort : ∀ {s : State}, P s → P s.freePort
  storeCommit : ∀ {s : State} (res : Resolution) (half : Half) (words : List Byte) (range : ColumnRange), P s →
    P { s with array := s.array.writeList (cellKey res.row (half.column range.first)) (rangeWords words range) }
  storeHost : ∀ {s : State} (op : HostOp) (res : Resolution) (t0 : Nat),
    s.port.inFlight = some { op := .host op res, grantedAt := t0 } → P s →
    P { s.freePort with array := op.kind.store s.array res.row }
  clear : ∀ {s : State}, P s → P { s with array := [], arrayState := .ready }
  holdReset : ∀ {s : State}, P s → P s.holdReset
  release : ∀ {s : State} (rate : LinkRate) (trig : Bool), P s → P (s.release rate trig)

/-- Such a property that also holds whatever LANE STALLs are owed. -/
structure State.KeptOwing (P : State → Prop) : Prop extends State.Kept P where
  owing : ∀ {s : State} (owed : List OwedStall), P s → P { s with stalls := owed }

section
variable {P : State → Prop}

/-! ## Lanes, notices and answers -/

theorem State.Kept.mapLane (k : State.Kept P) {s : State} (l : LaneId) {f : Lane → Lane}
    (keeps : (s.lane l).Keeps (TracksActive P) (f (s.lane l))) (h : P s) : P (s.mapLane l f) :=
  k.setLane l keeps h

theorem State.Kept.offerAll (k : State.Kept P) {s : State} (ns : List Notice) (h : P s) : P (s.offerAll ns) := by
  induction ns generalizing s with
  | nil => exact h
  | cons n ns ih => exact ih (k.offer n h)

theorem State.Kept.retire (k : State.Kept P) {s : State} (l : LaneId) (c : HeldCue) (o : CueOutcome) (h : P s) :
    P (s.retire l c o) := by
  rw [State.retire_eq]
  exact k.offerAll _ h

theorem State.Kept.abortAll (k : State.Kept P) {s : State} (tags : List Byte) (h : P s) : P (s.abortAll tags) := by
  induction tags generalizing s with
  | nil => exact h
  | cons t ts ih => exact ih (k.answer t .aborted .none h)

theorem foldl_keeps (f : State → LaneId → State) (step : ∀ {s : State} (l : LaneId), P s → P (f s l))
    (ls : List LaneId) {s : State} (h : P s) : P (ls.foldl f s) := by
  induction ls generalizing s with
  | nil => exact h
  | cons l ls ih => exact ih (step l h)

@[simp] theorem State.retire_lane (s : State) (l m : LaneId) (c : HeldCue) (o : CueOutcome) :
    (s.retire l c o).lane m = s.lane m := by
  rw [State.retire_eq, State.offerAll_lane]

@[simp] theorem State.retire_event (s : State) (l : LaneId) (c : HeldCue) (o : CueOutcome) :
    (s.retire l c o).event = s.event := by
  rw [State.retire_eq, State.offerAll_event]

/-! ## Halts (R78 to R82, R99, R100, R125) -/

theorem State.Kept.haltOne (k : State.Kept P) {s : State} (l : LaneId) (reason : HaltReason) (h : P s) :
    P (s.haltOne l reason) := by
  rw [State.haltOne_eq]
  exact k.offerAll _ (k.setLane l (Lane.Keeps.halted _ _ _) h)

theorem State.Kept.haltOthers (k : State.Kept P) {s : State} (l : LaneId) (g : GroupName) (h : P s) :
    P (s.haltOthers l g) := by
  refine foldl_keeps _ (fun m hs => ?_) laneOrder h
  split
  · exact k.haltOne m .group hs
  · exact hs

theorem State.Kept.halt (k : State.Kept P) {s : State} (l : LaneId) (reason : HaltReason) (h : P s) :
    P (s.halt l reason) := by
  unfold State.halt
  split
  · exact k.haltOthers l _ (k.haltOne l reason h)
  · exact k.haltOne l reason h

theorem State.Kept.stopMembers (k : State.Kept P) {s : State} (g : GroupName) (h : P s) : P (s.stopMembers g) :=
  foldl_keeps _ (fun l hs => k.haltOne l .request hs) _ h

/-- A lane that is not RUNNING has no ACTIVE slot. -/
theorem TracksActive.inactive (a : TracksActive P) {s : State} {l : LaneId} (h : P s)
    (stopped : (s.lane l).state ≠ .running) : (s.lane l).activeSlot = none :=
  (a s h l).running stopped

theorem State.KeptOwing.actDry (k : State.KeptOwing P) {s : State} (l : LaneId) (id : Byte)
    (inactive : TracksActive P → (s.lane l).activeSlot = none) (h : P s) : P (s.actDry l id) := by
  unfold State.actDry
  split
  · exact k.halt l .ended h
  · exact k.owing _ (k.mapLane l (Lane.Keeps.of_inactive rfl (List.Subperm.refl _) inactive) h)

theorem State.Kept.leaveEnding (k : State.Kept P) {s : State} (l : LaneId) (h : P s) : P (s.leaveEnding l) := by
  unfold State.leaveEnding
  dsimp only
  split
  · next ending =>
    split
    · exact h
    · refine k.offer _ (k.setLane l (Lane.Keeps.of_state rfl (fun _ => ?_) rfl rfl rfl) h)
      simp [ending]
  · exact h

/-! ## Settling -/

theorem State.Kept.endReset (k : State.Kept P) {s : State} (l : LaneId) (h : P s) : P (s.mapLane l Lane.endReset) :=
  k.mapLane l (Lane.Keeps.of_nothing rfl rfl) h

theorem State.Kept.endLaneReset (k : State.Kept P) {s : State} (l : LaneId) (h : P s) : P (s.endLaneReset l) := by
  unfold State.endLaneReset
  split
  · exact h
  · dsimp only
    split
    · exact k.answer _ _ _ (k.endReset l h)
    · exact k.endReset l h

theorem State.KeptOwing.settleLane (k : State.KeptOwing P) {s : State} (l : LaneId) (id : Byte) (h : P s) :
    P (s.settleLane l id) := by
  have staged : P (s.mapLane l (Lane.stage s.event)) := k.mapLane l (Lane.Keeps.stage _ _) h
  unfold State.settleLane
  revert staged
  generalize s.mapLane l (Lane.stage s.event) = t
  intro ht
  dsimp only
  split
  · next priming =>
    split
    · exact k.setLane l (Lane.Keeps.of_state rfl (fun _ => by simp [priming]) rfl rfl rfl) ht
    · exact ht
  · next stalled _ =>
    split
    · exact k.actDry (s := t.excuseUnderrun l) l id (fun a => a.inactive (s := t) ht (by simp [stalled])) (k.owing _ ht)
    · exact ht
  · next stalled _ =>
    split
    · exact k.setLane l (Lane.Keeps.run _ (by simp [stalled])) ht
    · split
      · exact k.actDry l id (fun a => a.inactive ht (by simp [stalled])) ht
      · exact ht
  · exact k.leaveEnding l ht
  · exact k.endLaneReset l ht
  · exact ht

/-! ## The end of an event -/

theorem State.KeptOwing.select (k : State.KeptOwing P) {s : State} (h : P s) : P s.select := by
  refine State.select_keeps P ?_ ?_ ?_ ?_ s h
  · intro s op rest res hs free chosen _
    exact k.grantHost op rest res free (s.choose_host op rest chosen) hs
  · intro s c res hs free chosen _
    exact k.grantLane c res free (s.choose_lane c chosen).2 hs
  · intro s op rest hs free chosen _
    refine ⟨k.answer _ _ _ (k.leaveHost op rest (s.choose_host op rest chosen) hs), ?_⟩
    rw [State.dropHost_eq, (State.LaneAndLinkWork.answer _ _ _ _).port_eq]
    exact free
  · intro s c hs free _ _
    refine ⟨k.settleLane _ _ (k.retire _ _ _ (k.mapLane _ (Lane.Keeps.setSlot_none _ _ _ rfl rfl) hs)), ?_⟩
    rw [s.dropClaim_port, free]

theorem State.KeptOwing.endEvent (k : State.KeptOwing P) {s : State} (h : P s) : P s.endEvent := by
  have reported : P s.select.reportStalls := by
    rw [State.reportStalls_eq]
    exact k.offerAll _ (k.owing [] (k.select h))
  exact k.alike (s := s.select.reportStalls) rfl reported

end

end Sys2Proof.Machine
end

section
/-! SUPPORT. The walk through a beat (R28, R37 to R41, R67 to R76, R91 to R97), for any property that the parts of an event
keep. -/

namespace Sys2Proof.Machine

open Sys2Proof

section
variable {P : State → Prop}

@[simp] theorem State.finishCue_lane (s : State) (l : LaneId) (n : SlotName) (c : HeldCue) :
    (s.finishCue l n c).lane l = (s.lane l).setSlot n .empty := by
  simp [State.finishCue]

/-! ## Slots -/

theorem Lane.activeSlot_eq_none_of_slots {ln : Lane} (n : SlotName) (this : (ln.slot n).progress? = none)
    (other : (ln.slot n.other).progress? = none) : ln.activeSlot = none := by
  rw [Lane.activeSlot_eq_none]
  cases n
  · exact ⟨this, other⟩
  · exact ⟨other, this⟩

/-- With one slot EMPTY and no other ACTIVE there is none. -/
theorem Lane.activeSlot_setSlot_none (ln : Lane) (n : SlotName) (x : Slot) (progress : x.progress? = none)
    (other : (ln.slot n.other).progress? = none) : (ln.setSlot n x).activeSlot = none :=
  Lane.activeSlot_eq_none_of_slots n (by simpa using progress) (by simpa using other)

theorem Lane.Keeps.afterHalt {A : Prop} (ln : Lane) (n : SlotName) (age : Nat) :
    ln.Keeps A (ln.setSlot n ((ln.slot n).afterHalt age)) :=
  Lane.Keeps.setSlot ln n _ ((List.sublist_append_right _ _).trans (Slot.afterHalt_cue _ age)) (by simp)

theorem Lane.Keeps.granted {A : Prop} (ln : Lane) (n : SlotName) : ln.Keeps A (ln.setSlot n (ln.slot n).granted) := by
  refine Lane.Keeps.setSlot ln n _ (by simp) ?_
  cases ln.slot n <;> exact id

/-! ## Play lanes -/

theorem State.Kept.finishCue (k : State.Kept P) {s : State} (l : LaneId) (n : SlotName) (c : HeldCue) (h : P s) :
    P (s.finishCue l n c) :=
  k.retire _ _ _ (k.mapLane l (Lane.Keeps.setSlot_none _ _ _ rfl rfl) h)

theorem State.KeptOwing.reportUnderrun (k : State.KeptOwing P) {s : State} (l : LaneId) (ended retired : Byte)
    (stalled : (s.lane l).state = .stalled .underrun) (h : P s) : P (s.reportUnderrun l ended retired) := by
  unfold State.reportUnderrun
  split
  · exact k.actDry l _ (fun a => a.inactive h (by simp [stalled])) h
  · exact k.owing _ h

theorem State.KeptOwing.underrunHold (k : State.KeptOwing P) {s : State} (l : LaneId) (c : HeldCue)
    (inactive : TracksActive P → (s.lane l).activeSlot = none) (h : P s) : P (s.underrunHold l c) := by
  refine k.reportUnderrun l _ _ (by simp) (k.mapLane l ?_ h)
  exact Lane.Keeps.thenStage _ (Lane.Keeps.of_inactive rfl (List.Subperm.refl _) inactive)

theorem Lane.Keeps.skipStall {A : Prop} {ln : Lane} (age : Nat) (inactive : A → ln.activeSlot = none) :
    ln.Keeps A (ln.skipStall age) :=
  Lane.Keeps.thenStage age (Lane.Keeps.of_inactive rfl (List.Subperm.refl _) inactive)

@[simp] theorem Lane.skipStall_state (age : Nat) (ln : Lane) : (ln.skipStall age).state = .stalled .underrun := by
  simp [Lane.skipStall]

theorem State.KeptOwing.underrunSkip (k : State.KeptOwing P) {s : State} (l : LaneId) (n : SlotName) (c : HeldCue)
    (this : ((s.lane l).slot n).progress? = none) (other : TracksActive P → ((s.lane l).slot n.other).progress? = none)
    (h : P s) : P (s.underrunSkip l n c) := by
  unfold State.underrunSkip
  split
  · next late _ =>
    refine k.reportUnderrun l _ _ (by simp) (k.mapLane l (Lane.Keeps.skipStall _ fun _ => ?_) ?_)
    · have gone : ((s.giveUpLate l n.other late).lane l) =
          ((s.lane l).setSlot n.other (((s.lane l).slot n.other).afterHalt s.event)).countLateCue := by
        simp [State.giveUpLate]
      rw [gone]
      exact Lane.activeSlot_setSlot_none _ _ _ (Slot.progress_afterHalt _ _) (by simpa using this)
    · exact k.retire _ _ _ (k.mapLane l ((Lane.Keeps.afterHalt _ _ _).trans
        (Lane.Keeps.of_state rfl id rfl rfl rfl)) h)
  · refine k.reportUnderrun l _ _ (by simp) (k.mapLane l (Lane.Keeps.skipStall _ fun a => ?_) h)
    exact Lane.activeSlot_eq_none_of_slots n this (other a)

theorem State.KeptOwing.underrun (k : State.KeptOwing P) {s : State} (l : LaneId) (n : SlotName) (c : HeldCue)
    (this : ((s.lane l).slot n).progress? = none) (other : TracksActive P → ((s.lane l).slot n.other).progress? = none)
    (h : P s) : P (s.underrun l n c) := by
  have hold := k.underrunHold l c (fun a => Lane.activeSlot_eq_none_of_slots n this (other a)) h
  unfold State.underrun
  split
  · exact k.halt l .underrun h
  · exact k.underrunSkip l n c this other h
  · exact hold
  · exact hold

theorem State.Kept.switchTo (k : State.Kept P) {s : State} (l : LaneId) (n : SlotName)
    (running : (s.lane l).state = .running) (other : ((s.lane l).slot n.other).progress? = none) (h : P s) :
    P (s.switchTo l n) :=
  k.mapLane l ((Lane.Keeps.activate running other).trans (Lane.Keeps.stage _ _)) h

/-- The end of a span: whatever follows, the slot that ended is EMPTY. -/
theorem State.KeptOwing.spanEnd (k : State.KeptOwing P) {s : State} (l : LaneId) (n : SlotName) (c : HeldCue)
    (running : (s.lane l).state = .running) (other : TracksActive P → ((s.lane l).slot n.other).progress? = none)
    (h : P s) : P (s.spanEnd l n c) := by
  have finished := k.finishCue l n c h
  have this : (((s.finishCue l n c).lane l).slot n).progress? = none := by simp [Slot.progress?]
  have other' : TracksActive P → (((s.finishCue l n c).lane l).slot n.other).progress? = none := by simpa using other
  unfold State.spanEnd
  dsimp only
  split
  · exact k.halt l .ended finished
  · split
    · exact k.switchTo l n.other (by simpa using running) (by simpa using this) finished
    · split
      · exact k.underrun l n c this other' finished
      · exact k.actDry l _ (fun a => Lane.activeSlot_eq_none_of_slots n this (other' a)) finished

theorem State.KeptOwing.endContinuous (k : State.KeptOwing P) {s : State} (l : LaneId) (n : SlotName) (c : HeldCue)
    (restart : Slot) (running : (s.lane l).state = .running)
    (restarts : (s.lane l).Keeps (TracksActive P) ((s.lane l).setSlot n restart)) (h : P s) :
    P (s.endContinuous l n c restart) := by
  have finished := k.finishCue l n c h
  unfold State.endContinuous
  dsimp only
  split
  · split
    · exact k.halt l .ended finished
    · exact k.switchTo l n.other (by simpa using running) (by simp [Slot.progress?]) finished
  · exact k.mapLane l restarts h

/-- A slot that plays its cue on. -/
theorem Lane.Keeps.playOn {A : Prop} {ln : Lane} {n : SlotName} {c : HeldCue} {words : List Byte} {res : Resolution}
    {p : Progress} (playing : ln.slot n = .playing c words res p) (q : Progress) :
    ln.Keeps A (ln.setSlot n (.playing c words res q)) :=
  Lane.Keeps.setSlot ln n _ (by simp [playing, Slot.cue?]) (by simp [playing, Slot.progress?])

theorem State.KeptOwing.presentWord (k : State.KeptOwing P) {s : State} (l : LaneId) (n : SlotName) (c : HeldCue)
    (words : List Byte) (res : Resolution) (p : Progress) (running : (s.lane l).state = .running)
    (playing : (s.lane l).slot n = .playing c words res p)
    (other : TracksActive P → ((s.lane l).slot n.other).progress? = none) (h : P s) :
    P (s.presentWord l n c words res p) := by
  unfold State.presentWord
  dsimp only
  generalize wordAt c.record.tap words p.pointer = w
  generalize hq : ({ pointer := p.pointer, repsLeft := p.repsLeft, begun := true, finalShown := _ } : Progress) = q
  generalize ht : (if (!p.begun && c.record.notifyStart) = true then _ else _ : State) = t
  have lane : t.lane l = { ((s.lane l).present w (!p.begun && c.record.mark)).setSlot n (.playing c words res q) with
      awaitingFirstBeat := false } := by
    rw [← ht]
    split <;> simp
  have shown : P t := by
    have set : P (s.mapLane l fun ln => { (ln.present w (!p.begun && c.record.mark)).setSlot n (.playing c words res q) with
        awaitingFirstBeat := false }) := by
      have present : (s.lane l).Keeps (TracksActive P) ((s.lane l).present w (!p.begun && c.record.mark)) :=
        Lane.Keeps.of_state rfl id rfl rfl rfl
      refine k.mapLane l ((present.trans (Lane.Keeps.playOn (p := p) ?_ q)).trans
        (Lane.Keeps.of_state rfl id rfl rfl rfl)) h
      rw [← playing]
      cases n <;> rfl
    rw [← ht]
    split
    · exact k.offer _ set
    · exact set
  have running' : (t.lane l).state = .running := by simpa [lane] using running
  have slot_other : (t.lane l).slot n.other = (s.lane l).slot n.other := by
    rw [lane]
    cases n <;> rfl
  have playing' : (t.lane l).slot n = .playing c words res q := by
    rw [lane]
    cases n <;> rfl
  have other' : TracksActive P → ((t.lane l).slot n.other).progress? = none := by rwa [slot_other]
  have playOn (r : Progress) : P (t.mapLane l fun ln => ln.setSlot n (.playing c words res r)) :=
    k.mapLane l (Lane.Keeps.playOn playing' r) shown
  split
  · exact playOn _
  · split
    · exact k.halt l .request shown
    · split
      · split
        · exact playOn _
        · exact k.spanEnd l n c running' other' shown
      · exact k.endContinuous l n c _ running' (Lane.Keeps.playOn playing' _) shown

theorem State.KeptOwing.playBeat (k : State.KeptOwing P) {s : State} (l : LaneId)
    (running : (s.lane l).state = .running) (h : P s) : P (s.playBeat l) := by
  unfold State.playBeat
  split
  · exact h
  · next n active =>
    split
    · next playing => exact k.presentWord l n _ _ _ _ running playing (fun a => ((a s h l).other active).2) h
    · exact h

/-! ## Capture lanes -/

theorem State.KeptOwing.overrun (k : State.KeptOwing P) {s : State} (l : LaneId) (c : HeldCue)
    (inactive : TracksActive P → (s.lane l).activeSlot = none) (h : P s) : P (s.overrun l c) := by
  unfold State.overrun
  split
  · exact k.halt l .overrun h
  · exact k.owing _ (k.mapLane l (Lane.Keeps.of_inactive rfl (List.Subperm.refl _) inactive) h)

theorem State.KeptOwing.captureSpanEnd (k : State.KeptOwing P) {s : State} (l : LaneId) (n : SlotName) (c : HeldCue)
    (words : List Byte) (running : (s.lane l).state = .running) (cue : ((s.lane l).slot n).cue? = some c)
    (other : TracksActive P → ((s.lane l).slot n.other).progress? = none) (h : P s) :
    P (s.captureSpanEnd l n c words) := by
  unfold State.captureSpanEnd
  dsimp only
  generalize ht : (s.mapLane l fun ln => ln.setSlot n (.commitWait c words _ s.event)) = t
  have placed : P t := by
    rw [← ht]
    exact k.mapLane l (Lane.Keeps.setSlot _ _ _ (by rw [cue]; exact List.Sublist.refl _) (by simp [Slot.progress?])) h
  have running' : (t.lane l).state = .running := by simpa [← ht] using running
  have this : ((t.lane l).slot n).progress? = none := by simp [← ht, Slot.progress?]
  have other' : TracksActive P → ((t.lane l).slot n.other).progress? = none := by simpa [← ht] using other
  have inactive : TracksActive P → (t.lane l).activeSlot = none := fun a =>
    Lane.activeSlot_eq_none_of_slots n this (other' a)
  split
  · exact k.halt l .request placed
  · split
    · exact k.halt l .ended placed
    · split
      · exact k.mapLane l (Lane.Keeps.activate running' (by simpa using this)) placed
      · split
        · exact k.overrun l c inactive placed
        · split
          · refine k.mapLane l ((Lane.Keeps.stageHead t.event _).trans (Lane.Keeps.activate ?_ ?_)) placed
            · simpa using running'
            · simpa [Lane.slot_stageHead_progress] using this
          · exact k.actDry l _ inactive placed

/-- A slot that captures on. -/
theorem Lane.Keeps.captureOn {A : Prop} {ln : Lane} {n : SlotName} {c : HeldCue} {words : List Byte} {p : Progress}
    (capturing : ln.slot n = .capturing c words p) (taken : List Byte) (q : Progress) :
    ln.Keeps A (ln.setSlot n (.capturing c taken q)) :=
  Lane.Keeps.setSlot ln n _ (by simp [capturing, Slot.cue?]) (by simp [capturing, Slot.progress?])

theorem State.KeptOwing.captureWord (k : State.KeptOwing P) {s : State} (l : LaneId) (w : Byte) (n : SlotName)
    (c : HeldCue) (words : List Byte) (p : Progress) (running : (s.lane l).state = .running)
    (capturing : (s.lane l).slot n = .capturing c words p)
    (other : TracksActive P → ((s.lane l).slot n.other).progress? = none) (h : P s) :
    P (s.captureWord l w n c words p) := by
  unfold State.captureWord
  dsimp only
  generalize putWord c.record.tap words p.pointer w = taken
  generalize hq : ({ pointer := p.pointer, repsLeft := p.repsLeft, begun := true, finalShown := p.finalShown } : Progress) = q
  generalize ht : (if (!p.begun && c.record.notifyStart) = true then _ else _ : State) = t
  have lane : t.lane l = ((s.lane l).drivesMark (!p.begun && c.record.mark)).setSlot n (.capturing c taken q) := by
    rw [← ht]
    split <;> simp
  have shown : P t := by
    have set : P (s.mapLane l fun ln =>
        (ln.drivesMark (!p.begun && c.record.mark)).setSlot n (.capturing c taken q)) := by
      have marked : (s.lane l).Keeps (TracksActive P) ((s.lane l).drivesMark (!p.begun && c.record.mark)) :=
        Lane.Keeps.of_state rfl id rfl rfl rfl
      refine k.mapLane l (marked.trans (Lane.Keeps.captureOn (words := words) (p := p) ?_ taken q)) h
      rw [← capturing]
      cases n <;> rfl
    rw [← ht]
    split
    · exact k.offer _ set
    · exact set
  have running' : (t.lane l).state = .running := by simpa [lane] using running
  have slot_other : (t.lane l).slot n.other = (s.lane l).slot n.other := by
    rw [lane]
    cases n <;> rfl
  have capturing' : (t.lane l).slot n = .capturing c taken q := by
    rw [lane]
    cases n <;> rfl
  split
  · exact k.mapLane l (Lane.Keeps.captureOn capturing' taken _) shown
  · exact k.captureSpanEnd l n c _ running' (by rw [capturing']; rfl) (by rwa [slot_other]) shown

theorem State.KeptOwing.captureBeat (k : State.KeptOwing P) {s : State} (l : LaneId) (ld : Byte) (lqv : Bool)
    (running : (s.lane l).state = .running) (h : P s) : P (s.captureBeat l ld lqv) := by
  unfold State.captureBeat
  dsimp only
  generalize ht : (s.mapLane l fun ln => { ln.drivesMark false with awaitingFirstBeat := false }) = t
  have marked : P t := by
    rw [← ht]
    exact k.mapLane l (Lane.Keeps.of_state rfl id rfl rfl rfl) h
  have running' : (t.lane l).state = .running := by simpa [← ht] using running
  split
  · split
    · exact marked
    · next n active =>
      split
      · next capturing =>
        exact k.captureWord l ld n _ _ _ running' capturing (fun a => ((a t marked l).other active).2) marked
      · exact marked
  · exact marked

/-! ## The beat -/

theorem State.KeptOwing.runningBeat (k : State.KeptOwing P) {s : State} (l : LaneId) (ld : Byte) (lqv : Bool)
    (running : (s.lane l).state = .running) (h : P s) : P (s.runningBeat l ld lqv) := by
  unfold State.runningBeat
  split
  · exact k.playBeat l running h
  · exact k.captureBeat l ld lqv running h

/-- What a tally counts is no part of a cue's record. -/
theorem Slot.mapCue_record (f : HeldCue → HeldCue) (record : ∀ c, (f c).record = c.record) (x : Slot) :
    (x.mapCue f).cue?.toList.map HeldCue.record = x.cue?.toList.map HeldCue.record ∧
      (x.mapCue f).progress? = x.progress? := by
  cases x with
  | committing c words range => cases c <;> simp [Slot.mapCue, Slot.cue?, Slot.progress?, record]
  | _ => simp [Slot.mapCue, Slot.cue?, Slot.progress?, record]

theorem Lane.Keeps.mapCurrentCue {A : Prop} (f : HeldCue → HeldCue) (record : ∀ c, (f c).record = c.record) (ln : Lane) :
    ln.Keeps A (ln.mapCurrentCue f) := by
  have slot (n : SlotName) : ln.Keeps A (ln.setSlot n ((ln.slot n).mapCue f)) := by
    obtain ⟨cue, progress⟩ := Slot.mapCue_record f record (ln.slot n)
    refine ⟨fun h => h.of_records (by simp) ?_, fun _ h => h.of_fewer (by simp) fun m => ?_⟩
    · cases n <;> simp_all [Lane.held, Lane.slotCues, Lane.setSlot, Lane.slot, List.Subperm.refl]
    · cases n <;> cases m <;> simp_all [Lane.setSlot, Lane.slot]
  unfold Lane.mapCurrentCue
  split
  · exact slot _
  · split
    · exact slot _
    · split
      · exact Lane.Keeps.refl ln
      · next c q hq =>
        refine ⟨fun h => h.of_records rfl ?_, fun _ h => h.of_fewer id fun m => ?_⟩
        · simp [Lane.held, Lane.slotCues, hq, record, List.Subperm.refl]
        · cases m <;> exact id

theorem Lane.Keeps.thenMapCurrentCue {A : Prop} {ln x : Lane} {f : HeldCue → HeldCue} (h : ln.Keeps A x)
    (record : ∀ c, (f c).record = c.record) : ln.Keeps A (x.mapCurrentCue f) :=
  h.trans (Lane.Keeps.mapCurrentCue f record x)

theorem Lane.Keeps.countStallBeat {A : Prop} (ln : Lane) : ln.Keeps A ln.countStallBeat := by
  unfold Lane.countStallBeat
  exact Lane.Keeps.thenMapCurrentCue (Lane.Keeps.of_state rfl id rfl rfl rfl) fun _ => rfl

theorem Lane.Keeps.countDroppedWord {A : Prop} (ln : Lane) : ln.Keeps A ln.countDroppedWord := by
  unfold Lane.countDroppedWord
  exact Lane.Keeps.thenMapCurrentCue (Lane.Keeps.of_state rfl id rfl rfl rfl) fun _ => rfl

theorem State.KeptOwing.beat (k : State.KeptOwing P) {s : State} (l : LaneId) (ld : Byte) (lqv : Bool) (h : P s) :
    P (s.beat l ld lqv) := by
  have started {n : SlotName} (stopped : (s.lane l).state ≠ .running) : P (s.mapLane l (Lane.run n)) :=
    k.mapLane l (Lane.Keeps.run n stopped) h
  unfold State.beat
  split
  · next ready =>
    unfold State.readyBeat
    split
    · exact k.runningBeat l ld lqv (by simp [Lane.run]) (started (by simp [ready]))
    · exact h
  · next running => exact k.runningBeat l ld lqv running h
  · next cause stalled =>
    split
    · unfold State.stalledPlayBeat
      split
      · exact k.playBeat l (by simp [Lane.run]) (started (by simp [stalled]))
      · split
        · exact k.mapLane l (Lane.Keeps.countStallBeat _) h
        · exact h
    · unfold State.stalledCaptureBeat
      split
      · exact k.mapLane l (Lane.Keeps.countDroppedWord _) h
      · exact h
  all_goals exact h

end

end Sys2Proof.Machine
end

section
/-! SUPPORT. The walk through every command and every step, for any property that the parts of an event keep. -/

namespace Sys2Proof.Machine

open Sys2Proof

/-! ## Lane updates of the requests -/

/-- The posted records join the queue's tail, with tallies 0 and the next places in post order (R8, R13). -/
theorem Lane.enqueue_eq (cues : List Cue) (ln : Lane) :
    ln.enqueue cues =
      { ln with
        queue := ln.queue ++ cues.mapIdx fun i c =>
          { record := c, order := ln.nextOrder + i, stallTally := 0, dropTally := 0 }
        nextOrder := ln.nextOrder + cues.length } := by
  induction cues generalizing ln with
  | nil => simp [Lane.enqueue]
  | cons c cs ih =>
    rw [Lane.enqueue, ih]
    simp [List.mapIdx_cons, Nat.add_comm, Nat.add_left_comm]

/-- The records of the held cues after a post. -/
theorem Lane.enqueue_records (cues : List Cue) (ln : Lane) :
    (ln.enqueue cues).held.map HeldCue.record = ln.held.map HeldCue.record ++ cues := by
  rw [Lane.enqueue_eq]
  simp [Lane.held, Lane.slotCues, List.mapIdx_eq_zipIdx_map, Function.comp_def, List.zipIdx_map_fst]

/-- What checks 3 to 6 of Table 1-9 let pass. -/
theorem Lane.postRefusal_none {ln : Lane} {cues : List Cue} (h : ln.postRefusal cues = none) :
    ln.state.takesPost = true ∧ (∀ c ∈ cues, c.suits ln.config.mode = true) ∧
      (cues.map Cue.id).Nodup ∧ (∀ c ∈ cues, c.id ∉ ln.heldIds) ∧ ln.heldCount + cues.length ≤ 16 := by
  unfold Lane.postRefusal at h
  dsimp only at h
  split at h
  · cases h
  · split at h
    · cases h
    · split at h
      · cases h
      · split at h
        · cases h
        · simp_all [Config.maxHeld]

theorem Lane.Keeps.enqueue {A : Prop} {ln : Lane} {cues : List Cue} (h : ln.postRefusal cues = none) :
    ln.Keeps A (ln.enqueue cues) := by
  obtain ⟨_, suits, distinct, fresh, room⟩ := Lane.postRefusal_none h
  have records := Lane.enqueue_records cues ln
  have config : (ln.enqueue cues).config = ln.config := by rw [Lane.enqueue_eq]
  refine ⟨fun hc => ⟨?_, ?_, ?_⟩, fun _ ha => ha.of_fewer ?_ fun n => ?_⟩
  · have count := congrArg List.length records
    simp only [List.length_map, List.length_append] at count
    simp only [Lane.heldCount] at room ⊢
    omega
  · have ids : (ln.enqueue cues).heldIds = ln.heldIds ++ cues.map Cue.id := by
      have := congrArg (List.map Cue.id) records
      simpa [Lane.heldIds, Function.comp_def] using this
    rw [ids, List.nodup_append]
    refine ⟨hc.ids, distinct, fun x hx y hy same => ?_⟩
    obtain ⟨c, hcue, rfl⟩ := List.mem_map.mp hy
    exact fresh c hcue (same ▸ hx)
  · rw [config]
    intro capture c hcue
    have mem : c.record ∈ ln.held.map HeldCue.record ++ cues := records ▸ List.mem_map_of_mem hcue
    rcases List.mem_append.mp mem with old | new
    · obtain ⟨d, hd, same⟩ := List.mem_map.mp old
      rw [← same]
      exact hc.suits capture d hd
    · simpa [Cue.suits, capture] using suits _ new
  · rw [Lane.enqueue_eq]
    exact id
  · rw [Lane.enqueue_eq]
    cases n <;> exact id

theorem Lane.Keeps.configure {A : Prop} {ln : Lane} (c : LaneConfig) (now : Nat) (h : ln.takesConfig c.mode = true) :
    ln.Keeps A (ln.configure c now) := by
  refine ⟨fun hc => ⟨hc.count, hc.ids, fun capture => ?_⟩, fun _ ha => ha.of_fewer id fun n => by cases n <;> exact id⟩
  simp only [Lane.takesConfig, Bool.and_eq_true, Bool.or_eq_true, decide_eq_true_eq] at h
  rcases h.2 with same | ⟨⟨nothing, _⟩, _⟩
  · exact hc.suits (same ▸ capture)
  · have none_held : ln.held = [] := List.length_eq_zero_iff.mp nothing
    rw [show (ln.configure c now).held = ln.held from rfl, none_held]
    simp

theorem Lane.Keeps.prime {A : Prop} {ln : Lane} (stopped : ln.state.isStopped = true) : ln.Keeps A ln.prime :=
  Lane.Keeps.of_state rfl (fun _ running => by simp [running, LaneState.isStopped] at stopped) rfl rfl rfl

theorem Lane.activeSlot_enterReset (ln : Lane) : ln.enterReset.activeSlot = none :=
  (Lane.activeSlot_eq_none _).mpr ⟨Slot.progress_afterReset _, Slot.progress_afterReset _⟩

theorem Lane.Keeps.deviceReset {A : Prop} (ln : Lane) (now : Nat) : ln.Keeps A (ln.deviceReset now) := by
  unfold Lane.deviceReset
  dsimp only
  split
  · exact Lane.Keeps.of_nothing (Lane.held_enterReset ln) (Lane.activeSlot_enterReset ln)
  · exact Lane.Keeps.of_nothing rfl rfl

theorem Lane.Keeps.emptyQueue {A : Prop} (ln : Lane) : ln.Keeps A { ln with queue := [] } :=
  Lane.Keeps.of_held rfl ((List.Sublist.refl ln.slotCues).append (List.nil_sublist _)).subperm fun _ h =>
    h.of_fewer id fun n => by cases n <;> exact id

/-- The fire of a lane that is not RUNNING (R123). -/
theorem Lane.Keeps.fireAt {A : Prop} {ln : Lane} (now : Nat) (stopped : ln.state ≠ .running) :
    ln.Keeps A (ln.fireAt now) := by
  unfold Lane.fireAt
  dsimp only
  split
  · exact (Lane.Keeps.run _ stopped).trans (Lane.Keeps.of_state rfl id rfl rfl rfl)
  · refine Lane.Keeps.of_held rfl (List.Subperm.refl _) fun _ h => .of_running .a rfl ?_
    exact ((Lane.activeSlot_eq_none ln).mp (h.running stopped)).2

theorem State.Kept.endDeviceReset {P : State → Prop} (k : State.Kept P) {s : State} (h : P s) : P s.endDeviceReset := by
  unfold State.endDeviceReset
  split
  · exact h
  · exact k.offer _ (k.answer _ _ _ (k.alike (s := s) rfl h))

/-! ## Events -/

/-- An invariant of a run: each part of an event keeps it, up to the LANE STALLs owed inside the event, for which `Q`
stands (R77). -/
structure RunInvariant (P Q : State → Prop) : Prop where
  kept : State.Kept P
  within : State.KeptOwing Q
  enter : ∀ {s}, P s → Q s
  leave : ∀ {s : State}, s.stalls = [] → Q s → P s

/-- An invariant that does not speak of the LANE STALLs owed. -/
theorem RunInvariant.of_owing {P : State → Prop} (k : State.KeptOwing P) : RunInvariant P P :=
  ⟨k.toKept, k, id, fun _ => id⟩

section
variable {P Q : State → Prop} (i : RunInvariant P Q)
include i

theorem RunInvariant.endEvent {s : State} (h : Q s) : P s.endEvent :=
  i.leave (State.endEvent_stalls s) (i.within.endEvent h)

theorem RunInvariant.happen {s t : State} {f : State → State} (effect : ∀ {u : State}, P u → P (f u)) (h : P s)
    (e : s.happen f = .next t) : P t := by
  unfold State.happen at e
  split at e
  · cases e
    exact i.kept.transmit (effect (i.kept.alike (s := s) rfl h))
  · cases e
    exact h

/-! ## Arrival and dispatch -/

theorem RunInvariant.hunt {s : State} (blocked : Bool) (h : P s) : P (s.hunt blocked) := i.kept.alike (s := s) rfl h

theorem RunInvariant.discard {s : State} (kind : LinkErrorKind) (blocked : Bool) (h : P s) :
    P (s.discard kind blocked) := by
  have counted : P { s with link := s.link.countDiscard kind } := i.kept.alike (s := s) (by cases kind <;> rfl) h
  refine i.hunt blocked ?_
  unfold State.offerLinkError
  split
  · exact counted
  · exact i.kept.offer _ counted

theorem RunInvariant.receiveRequest {s : State} (tag code : Byte) (payload : List Byte) {serve : Service}
    (served : ∀ {e : Entry} {u : State}, P u → P (serve e u)) (h : P s) :
    P (s.receiveRequest tag code payload serve) := by
  have heard := i.hunt false h
  unfold State.receiveRequest
  split
  · unfold State.arrive
    split
    · exact i.kept.refuse _ _ _ heard
    · split
      · exact i.kept.refuse _ _ _ (i.kept.alike (s := s.hunt false) rfl heard)
      · next room =>
        split
        · exact i.kept.refuse _ _ _ heard
        · next fresh =>
          exact served (i.kept.enter { tag := tag, code := code, payload := payload, state := .received }
            (Nat.not_le.mp room) (by simpa using fresh) heard)
  · exact i.discard _ _ h

theorem RunInvariant.dispatchTo {α : Type} {parse : List Byte → Parsed α} {owner : Entry → α → State → State}
    (owned : ∀ {e : Entry} {x : α} {u : State}, parse e.payload = .fields x → P u → P (owner e x u)) {e : Entry} {s : State}
    (h : P s) : P (dispatchTo parse owner e s) := by
  unfold Machine.dispatchTo
  split
  · exact i.kept.answer _ _ _ h
  · exact i.kept.answer _ _ _ h
  · next parsed => exact owned parsed (i.kept.handToOwner _ h)

/-! ## The owners -/

theorem RunInvariant.ownCuePost {e : Entry} {x : LaneId × List Cue} {s : State} (h : P s) : P (ownCuePost e x s) := by
  unfold Machine.ownCuePost
  split
  · exact i.kept.answer _ _ _ h
  · next passed =>
    exact i.endEvent (i.within.answer _ _ _ (i.within.settleLane _ _
      (i.within.mapLane _ (Lane.Keeps.enqueue passed) (i.enter h))))

theorem RunInvariant.ownCueFlush {e : Entry} {l : LaneId} {s : State} (h : P s) : P (ownCueFlush e l s) := by
  unfold Machine.ownCueFlush
  split
  · exact i.kept.answer _ _ _ h
  · dsimp only
    rw [State.retireFlushed_eq]
    exact i.kept.answer _ _ _ (i.kept.offerAll _ (i.kept.mapLane _ (Lane.Keeps.emptyQueue _) h))

theorem RunInvariant.ownCueList {e : Entry} {l : LaneId} {s : State} (h : P s) : P (ownCueList e l s) := by
  unfold Machine.ownCueList
  split <;> exact i.kept.answer _ _ _ h

theorem RunInvariant.ownLaneConfig {e : Entry} {r : ConfigRequest} {s : State} (h : P s) : P (ownLaneConfig e r s) := by
  unfold Machine.ownLaneConfig
  split
  · exact i.kept.answer _ _ _ h
  · next takes =>
    split
    · exact i.kept.answer _ _ _ h
    · exact i.kept.answer _ _ _ (i.kept.mapLane _ (Lane.Keeps.configure _ _ (by simpa using takes)) h)

theorem RunInvariant.ownLaneStart {e : Entry} {l : LaneId} {s : State} (h : P s) : P (ownLaneStart e l s) := by
  unfold Machine.ownLaneStart
  split
  · exact i.kept.answer _ _ _ h
  · split
    · exact i.kept.answer _ _ _ h
    · next stopped =>
      split
      · exact i.kept.answer _ _ _ h
      · exact i.endEvent (i.within.answer _ _ _ (i.within.settleLane _ _
          (i.within.mapLane _ (Lane.Keeps.prime (by simpa using stopped)) (i.enter h))))

theorem RunInvariant.ownLaneStop {e : Entry} {x : LaneId × StopMode} {s : State} (h : P s) : P (ownLaneStop e x s) := by
  unfold Machine.ownLaneStop
  split
  · exact i.kept.answer _ _ _ h
  · have answered := i.within.answer e.tag .ok .none (i.enter h)
    refine i.endEvent ?_
    unfold State.stopLane
    split
    · exact i.within.halt _ _ answered
    · split
      · exact i.within.mapLane _ (Lane.Keeps.of_state rfl id rfl rfl rfl) answered
      · exact i.within.halt _ _ answered

theorem RunInvariant.ownLaneReset {e : Entry} {l : LaneId} {s : State} (h : P s) : P (ownLaneReset e l s) := by
  unfold Machine.ownLaneReset
  split
  · exact i.kept.answer _ _ _ h
  · have entered : Q (s.mapLane l Lane.enterReset) := i.within.mapLane l
      (Lane.Keeps.of_nothing (Lane.held_enterReset _) (Lane.activeSlot_enterReset _)) (i.enter h)
    refine i.endEvent ?_
    split
    · exact entered
    · exact i.within.answer _ _ _ (i.within.endReset l entered)

theorem RunInvariant.ownLaneStatus {e : Entry} {x : LaneId × Bool} {s : State} (h : P s) : P (ownLaneStatus e x s) := by
  unfold Machine.ownLaneStatus
  refine i.kept.answer _ _ _ ?_
  split
  · exact i.kept.mapLane _ (Lane.Keeps.of_state rfl id rfl rfl rfl) h
  · exact h

theorem RunInvariant.ownHostOp {e : Entry} {x : RowRef × HostKind} {s : State} (inRow : x.2.inRow = true) (h : P s) :
    P (ownHostOp e x s) := by
  unfold Machine.ownHostOp
  split
  · exact i.kept.answer _ _ _ h
  · split
    · exact i.kept.answer _ _ _ h
    · next room => exact i.endEvent (i.within.joinHost { tag := e.tag, ref := x.1, kind := x.2 } (Nat.not_le.mp room) inRow (i.enter h))

theorem RunInvariant.rebind {s : State} (tag : Byte) (n : AliasNo) (entry : AliasEntry) (h : P s) :
    P (s.rebind tag n entry) :=
  i.kept.answer _ _ _ (i.kept.alike (s := s) rfl h)

theorem RunInvariant.ownGroupConfig {e : Entry} {x : GroupName × TriggerSource × Bool} {s : State} (h : P s) :
    P (ownGroupConfig e x s) := by
  unfold Machine.ownGroupConfig
  split
  · exact i.kept.answer _ _ _ (i.kept.alike (s := s) rfl h)
  · exact i.kept.answer _ _ _ h

theorem RunInvariant.fireAll (ls : List LaneId) (distinct : ls.Nodup) {s : State}
    (ready : ∀ l ∈ ls, (s.lane l).state = .ready) (h : P s) :
    P (ls.foldl (fun s l => s.mapLane l (Lane.fireAt s.now)) s) := by
  induction ls generalizing s with
  | nil => exact h
  | cons l ls ih =>
    obtain ⟨other, distinct'⟩ := List.nodup_cons.mp distinct
    refine ih distinct' (fun m hm => ?_) (i.kept.mapLane l (Lane.Keeps.fireAt _ ?_) h)
    · rw [State.lane_mapLane_other _ _ _ _ (ne_of_mem_of_not_mem hm other)]
      exact ready m (List.mem_cons_of_mem _ hm)
    · simp [ready l List.mem_cons_self]

theorem RunInvariant.fire {s : State} (g : GroupName) (h : P s) : P (s.fire g) := by
  unfold State.fire
  refine i.kept.offer _ ?_
  have fired := i.fireAll (s.readyMembers g) (s.readyMembers_nodup g)
    (fun l hl => ((s.mem_readyMembers g l).mp hl).2) h
  exact i.kept.alike (s := (s.readyMembers g).foldl (fun s l => s.mapLane l (Lane.fireAt s.now)) s) rfl fired

theorem RunInvariant.ownGroupGo {e : Entry} {g : GroupName} {s : State} (h : P s) : P (ownGroupGo e g s) := by
  unfold Machine.ownGroupGo
  split
  · exact i.kept.answer _ _ _ (i.fire g h)
  · exact i.kept.answer _ _ _ h

theorem RunInvariant.ownGroupStop {e : Entry} {g : GroupName} {s : State} (h : P s) : P (ownGroupStop e g s) :=
  i.endEvent (i.within.answer _ _ _ (i.within.stopMembers g (i.enter h)))

theorem RunInvariant.ownDeviceStatus {e : Entry} {clear : Bool} {s : State} (h : P s) :
    P (ownDeviceStatus e clear s) := by
  unfold Machine.ownDeviceStatus
  refine i.kept.answer _ _ _ ?_
  split
  · exact i.kept.alike (s := s) rfl h
  · exact h

theorem RunInvariant.ownDeviceReset {e : Entry} {x : Unit} {s : State} (h : P s) : P (ownDeviceReset e x s) := by
  have taken : P (s.takeDeviceReset e.tag) := by
    rw [State.takeDeviceReset_eq]
    exact i.kept.defaults _ (i.kept.abortAll _ h)
  unfold Machine.ownDeviceReset
  dsimp only
  split
  · exact taken
  · exact i.kept.endDeviceReset taken

end

/-! ## Row requests keep to one row -/

theorem parseRowWrite_inRow {payload : List Byte} {x : RowRef × HostKind} (h : parseRowWrite payload = .fields x) :
    x.2.inRow = true := by
  unfold parseRowWrite at h
  split at h
  · split at h
    · cases h
    · next fits =>
      split at h
      · next inside =>
        cases h
        simp only [rangeInRow, Bool.and_eq_true, decide_eq_true_eq] at inside
        simp only [HostKind.inRow, decide_eq_true_eq]
        omega
      · cases h
  · cases h

theorem parseRowRead_inRow {payload : List Byte} {x : RowRef × HostKind} (h : parseRowRead payload = .fields x) :
    x.2.inRow = true := by
  unfold parseRowRead at h
  split at h
  · split at h
    · next inside =>
      cases h
      simp only [rangeInRow, Bool.and_eq_true, decide_eq_true_eq] at inside
      simp only [HostKind.inRow, decide_eq_true_eq]
      omega
    · cases h
  · cases h

theorem parseRowFill_inRow {payload : List Byte} {x : RowRef × HostKind} (h : parseRowFill payload = .fields x) :
    x.2.inRow = true := by
  unfold parseRowFill at h
  split at h
  · split at h
    · next inside =>
      cases h
      simpa [HostKind.inRow] using inside
    · cases h
  · cases h

/-! ## Commands -/

section
variable {P Q : State → Prop} (i : RunInvariant P Q)
include i

/-- What serves an entry keeps the invariant, whatever its code. -/
theorem RunInvariant.service (code : Byte) {e : Entry} {s : State} (h : P s) : P (serviceOf code e s) := by
  suffices all : ∀ serve, serve = serviceOf code → P (serve e s) from all _ rfl
  intro serve served
  unfold serviceOf at served
  split at served <;> subst served
  · exact i.dispatchTo (fun _ => i.ownCuePost) h
  · exact i.dispatchTo (fun _ => i.ownCueFlush) h
  · exact i.dispatchTo (fun _ => i.ownCueList) h
  · exact i.dispatchTo (fun _ => i.ownLaneConfig) h
  · exact i.dispatchTo (fun _ => i.ownLaneStart) h
  · exact i.dispatchTo (fun _ => i.ownLaneStop) h
  · exact i.dispatchTo (fun _ => i.ownLaneReset) h
  · exact i.dispatchTo (fun _ => i.ownLaneStatus) h
  · exact i.dispatchTo (fun parsed => i.ownHostOp (parseRowWrite_inRow parsed)) h
  · exact i.dispatchTo (fun parsed => i.ownHostOp (parseRowRead_inRow parsed)) h
  · exact i.dispatchTo (fun parsed => i.ownHostOp (parseRowFill_inRow parsed)) h
  · exact i.dispatchTo (fun _ => i.rebind _ _ _) h
  · exact i.dispatchTo (fun _ => i.rebind _ _ _) h
  · exact i.dispatchTo (fun _ => i.kept.answer _ _ _) h
  · exact i.dispatchTo (fun _ => i.ownGroupConfig) h
  · exact i.dispatchTo (fun _ => i.ownGroupGo) h
  · exact i.dispatchTo (fun _ => i.ownGroupStop) h
  · exact i.dispatchTo (fun _ => i.kept.answer _ _ _) h
  · exact i.dispatchTo (fun _ hu => i.kept.answer _ _ _ (i.kept.unsend hu)) h
  · exact i.dispatchTo (fun _ => i.kept.answer _ _ _) h
  · exact i.dispatchTo (fun _ => i.ownDeviceStatus) h
  · exact i.dispatchTo (fun _ => i.ownDeviceReset) h
  · exact i.kept.answer _ _ _ h

/-- A request frame with code `code`. -/
theorem RunInvariant.request {s : State} (tag code : Byte) (payload : List Byte) (h : P s) :
    P (s.receiveRequest tag code payload (serviceOf code)) :=
  i.receiveRequest tag code payload (i.service code) h

theorem RunInvariant.judgeFrame {s : State} (bytes : List Byte) (h : P s) : P (s.judgeFrame bytes) := by
  have discarded := i.discard .framing false h
  unfold State.judgeFrame
  split
  · split
    · exact i.request _ _ _ h
    · split
      · split
        · exact i.kept.acknowledge _ (i.hunt false h)
        · exact discarded
      · exact discarded
  · exact discarded

theorem RunInvariant.setReceiver {s : State} (r : Receiver) (h : P s) : P (s.setReceiver r) :=
  i.kept.alike (s := s) rfl h

theorem RunInvariant.goodCharacter {s : State} (b : Byte) (h : P s) : P (s.goodCharacter b) := by
  unfold State.goodCharacter
  dsimp only
  split
  · split <;> exact i.setReceiver _ h
  · unfold State.headerByte
    dsimp only
    split
    · exact i.setReceiver _ h
    · split
      · exact i.discard _ _ h
      · split <;> exact i.setReceiver _ h
  · unfold State.payloadByte
    dsimp only
    split <;> exact i.setReceiver _ h
  · unfold State.checkByte
    split
    · exact i.setReceiver _ h
    · split
      · exact i.judgeFrame _ h
      · exact i.discard _ _ h

theorem RunInvariant.character {s : State} (byte : Byte) (line : CharacterLine) (h : P s) :
    P (if s.startBitLost line.highNs then s
      else
        let s := s.expireBefore line.highNs
        if line.stopHigh then s.goodCharacter byte else s.badCharacter) := by
  split
  · exact h
  · have expired : P (s.expireBefore line.highNs) := by
      rcases s.expireBefore_cases line.highNs with same | discarded
      · rwa [same]
      · rw [discarded]
        exact i.discard _ _ h
    dsimp only
    split
    · exact i.goodCharacter byte expired
    · unfold State.badCharacter
      split
      · exact i.setReceiver _ expired
      · exact i.discard _ _ expired

theorem RunInvariant.edgeAt {s : State} (rising : Bool) (g : GroupName) (h : P s) : P (s.edgeAt rising g) := by
  unfold State.edgeAt
  split
  · split
    · exact i.fire g h
    · exact i.kept.offer _ h
    · exact i.kept.offer _ h
  · exact h

theorem RunInvariant.completed {s : State} (h : Q s) : P s.completed :=
  i.endEvent (i.within.endDeviceReset h)

theorem RunInvariant.finishRefill {s : State} (l : LaneId) (n : SlotName) (res : Resolution) (h : Q s) :
    Q (s.finishRefill l n res) := by
  unfold State.finishRefill
  split
  · next loading =>
    refine i.within.settleLane _ _ (i.within.mapLane l (Lane.Keeps.setSlot _ _ _ ?_ ?_) h)
    · rw [loading]
      exact List.Sublist.refl _
    · exact fun k => nomatch k
  · exact i.within.settleLane _ _ (i.within.mapLane l (Lane.Keeps.setSlot_none _ _ _ rfl rfl) h)
  · exact h

theorem RunInvariant.finishCommit {s : State} (l : LaneId) (n : SlotName) (res : Resolution) (half : Half) (h : Q s) :
    Q (s.finishCommit l n res half) := by
  unfold State.finishCommit
  split
  · next cue words range _ =>
    have stored := i.within.storeCommit res half words range h
    have emptied := i.within.mapLane l (f := fun ln => ln.setSlot n .empty) (Lane.Keeps.setSlot_none _ n .empty rfl rfl)
      stored
    dsimp only
    split
    · exact i.within.settleLane _ _ (i.within.retire _ _ _ emptied)
    · exact i.within.settleLane _ _ emptied
  · exact h

/-- Every command keeps the invariant. -/
theorem RunInvariant.exec (c : Instr) {s t : State} (h : P s) (e : exec c s = .next t) : P t := by
  cases c with
  | cuePost tag payload => exact i.happen (i.request tag 0x10 payload) h e
  | cueFlush tag payload => exact i.happen (i.request tag 0x11 payload) h e
  | cueList tag payload => exact i.happen (i.request tag 0x12 payload) h e
  | laneConfig tag payload => exact i.happen (i.request tag 0x20 payload) h e
  | laneStart tag payload => exact i.happen (i.request tag 0x21 payload) h e
  | laneStop tag payload => exact i.happen (i.request tag 0x22 payload) h e
  | laneReset tag payload => exact i.happen (i.request tag 0x23 payload) h e
  | laneStatus tag payload => exact i.happen (i.request tag 0x24 payload) h e
  | rowWrite tag payload => exact i.happen (i.request tag 0x30 payload) h e
  | rowRead tag payload => exact i.happen (i.request tag 0x31 payload) h e
  | rowFill tag payload => exact i.happen (i.request tag 0x32 payload) h e
  | aliasBind tag payload => exact i.happen (i.request tag 0x40 payload) h e
  | aliasUnbind tag payload => exact i.happen (i.request tag 0x41 payload) h e
  | aliasQuery tag payload => exact i.happen (i.request tag 0x42 payload) h e
  | groupConfig tag payload => exact i.happen (i.request tag 0x50 payload) h e
  | groupGo tag payload => exact i.happen (i.request tag 0x51 payload) h e
  | groupStop tag payload => exact i.happen (i.request tag 0x52 payload) h e
  | groupStatus tag payload => exact i.happen (i.request tag 0x53 payload) h e
  | noticeResend tag payload => exact i.happen (i.request tag 0x60 payload) h e
  | echo tag payload => exact i.happen (i.request tag 0x70 payload) h e
  | deviceStatus tag payload => exact i.happen (i.request tag 0x71 payload) h e
  | deviceReset tag payload => exact i.happen (i.request tag 0x72 payload) h e
  | unknownRequest tag code payload => exact i.happen (i.request tag code payload) h e
  | noticeAck seq => exact i.happen (fun hu => i.kept.acknowledge seq (i.hunt false hu)) h e
  | frameDiscard frame =>
    dsimp only [Machine.exec, execFrameDiscard] at e
    refine i.happen ?_ h e
    intro u hu
    split
    · exact hu
    · exact i.discard _ _ hu
  | idleExpiry =>
    dsimp only [Machine.exec, execIdleExpiry] at e
    refine i.happen ?_ h e
    intro u hu
    split
    · exact i.discard _ _ hu
    · exact hu
  | hardReset =>
    cases e
    exact i.kept.holdReset h
  | resetnRelease rate1 rate0 trig =>
    change execResetnRelease rate1 rate0 trig s = .next t at e
    unfold execResetnRelease at e
    split at e
    · cases e
      exact h
    · cases e
      exact i.kept.transmit (i.kept.release _ trig (i.kept.alike (s := s) rfl h))
  | trigEdge level heldNs =>
    dsimp only [Machine.exec, execTrigEdge] at e
    refine i.happen ?_ h e
    intro u hu
    split
    · exact hu
    · have taken : P { u with trigLevel := level } := i.kept.alike (s := u) rfl hu
      split
      · exact i.edgeAt _ _ (i.edgeAt _ _ taken)
      · exact i.edgeAt _ _ (i.edgeAt _ _ taken)
  | dividerExpiry lane ld lqv =>
    dsimp only [Machine.exec, execDividerExpiry] at e
    refine i.happen ?_ h e
    intro u hu
    have restarted : P (u.mapLane lane fun ln => { ln with dividerStart := u.now }) :=
      i.kept.mapLane lane (Lane.Keeps.of_state rfl id rfl rfl rfl) hu
    split
    · exact i.endEvent (i.within.beat _ _ _ (i.enter restarted))
    · exact restarted
  | lckEdge lane afterNs ld lqv =>
    dsimp only [Machine.exec, execLckEdge] at e
    refine i.happen ?_ h e
    intro u hu
    split
    · exact hu
    · split
      · exact i.endEvent (i.within.beat _ _ _ (i.within.mapLane lane (Lane.Keeps.of_state rfl id rfl rfl rfl) (i.enter hu)))
      · exact hu
  | refillCompletion =>
    dsimp only [Machine.exec, execRefillCompletion] at e
    refine i.happen ?_ h e
    intro u hu
    split
    · exact i.completed (i.finishRefill _ _ _ (i.within.freePort (i.enter hu)))
    · exact hu
  | commitCompletion =>
    dsimp only [Machine.exec, execCommitCompletion] at e
    refine i.happen ?_ h e
    intro u hu
    split
    · exact i.completed (i.finishCommit _ _ _ _ (i.within.freePort (i.enter hu)))
    · exact hu
  | hostOperationCompletion =>
    dsimp only [Machine.exec, execHostOperationCompletion] at e
    refine i.happen ?_ h e
    intro u hu
    split
    · next op res t0 inFlight =>
      exact i.completed (i.within.answer _ _ _ (i.within.storeHost op res t0 inFlight (i.enter hu)))
    · exact hu
  | arrayClearCompletion =>
    dsimp only [Machine.exec, execArrayClearCompletion] at e
    refine i.happen ?_ h e
    intro u hu
    split
    · exact i.endEvent (i.within.offer _ (i.within.endDeviceReset (i.within.clear (i.within.freePort (i.enter hu)))))
    · exact hu
  | transmitterFrameEnd =>
    dsimp only [Machine.exec, execTransmitterFrameEnd] at e
    refine i.happen ?_ h e
    exact fun {u} hu => i.kept.alike (s := u) rfl hu
  | characterReceived byte line => exact i.happen (fun hu => i.character byte line hu) h e

/-- Every step keeps the invariant. -/
theorem RunInvariant.step {s t : State} (h : P s) (e : step s = .next t) : P t := by
  unfold Machine.step at e
  split at e
  · next c rest _ => exact i.exec c (s := { s with pending := rest }) (i.kept.alike (s := s) rfl h) e
  · cases e
    unfold State.passTime
    split
    · exact i.kept.alike (s := s) rfl h
    · exact h

end

end Sys2Proof.Machine
end

section
/-! SUPPORT and the obligations of what every step keeps: the array, the notice queue, the link, the host array queue and the
lanes. -/

namespace Sys2Proof.Machine

open Sys2Proof

/-! ## The frames of answers, refusals and the transmitter's choice -/

theorem State.answer_frame (s : State) (tag : Byte) (status : Status) (fields : ReplyFields) :
    s.answer tag status fields =
      { s with
        link := { s.link with table := (s.answer tag status fields).link.table }
        tx := { s.tx with replies := (s.answer tag status fields).tx.replies } } := by
  unfold State.answer
  split <;> rfl

theorem State.refuse_cases (s : State) (tag code : Byte) (status : Status) :
    (s.refuse tag code status =
        s.addReply { kind := .refusal, tag := tag, code := code, status := status, fields := .none } ∧
      (s.tx.replies.filter fun r => r.kind = .refusal).length < 4) ∨ s.refuse tag code status = s.countNoRoom := by
  unfold State.refuse
  split
  · next room => exact .inl ⟨rfl, room⟩
  · exact .inr rfl

theorem State.refuse_frame (s : State) (tag code : Byte) (status : Status) :
    s.refuse tag code status =
      { s with link := (s.refuse tag code status).link, tx := (s.refuse tag code status).tx } := by
  rcases s.refuse_cases tag code status with ⟨e, _⟩ | e <;> rw [e] <;> rfl

/-- The transmitter is busy or has nothing to send, or it takes the oldest reply, or the offered notice (R148, R149). -/
theorem State.transmit_cases (s : State) :
    s.transmit = s ∨ (∃ r rest, s.tx.replies = r :: rest ∧ s.transmit = s.takeReply r rest 0) ∨
      (∃ r rest, s.tx.replies = r :: rest ∧ s.tx.replyCount < 4 ∧ s.transmit = s.takeReply r rest (s.tx.replyCount + 1)) ∨
      ∃ e, s.notices.offered = some e ∧ s.transmit = s.takeNotice e := by
  unfold State.transmit
  split
  · exact .inl rfl
  · split
    · exact .inl rfl
    · next r rest replies _ => exact .inr (.inl ⟨r, rest, replies, rfl⟩)
    · next e _ offered => exact .inr (.inr (.inr ⟨e, offered, rfl⟩))
    · next r rest e replies offered =>
      split
      · next room => exact .inr (.inr (.inl ⟨r, rest, replies, room, rfl⟩))
      · exact .inr (.inr (.inr ⟨e, offered, rfl⟩))

theorem State.transmit_frame (s : State) :
    s.transmit = { s with notices := s.transmit.notices, tx := s.transmit.tx } := by
  rcases s.transmit_cases with e | ⟨r, rest, _, e⟩ | ⟨r, rest, _, _, e⟩ | ⟨n, _, e⟩ <;> rw [e] <;> rfl

theorem State.acknowledge_frame (s : State) (seq : Byte) :
    s.acknowledge seq = { s with notices := (s.acknowledge seq).notices } := by
  unfold State.acknowledge
  dsimp only
  split
  · rfl
  · split
    · rfl
    · rw [State.offer_frame]

/-! ## The array (R103, R108) -/

theorem State.ArraySafe.of_same {s t : State} (h : s.ArraySafe) (array : t.array = s.array)
    (waiting : t.hostWaiting = s.hostWaiting) (port : t.port.inFlight = s.port.inFlight) : t.ArraySafe :=
  ⟨array ▸ h.memory, waiting ▸ h.waiting, port ▸ h.inFlight⟩

/-- A commit's words lie inside the half of its row (R61). -/
theorem commit_inArray (row : Row) (half : Half) (words : List Byte) (range : ColumnRange) :
    cellKey row (half.column range.first) + (rangeWords words range).length ≤ Config.arrayWords := by
  refine cellKey_lt row _ _ ?_
  have hf := range.first.isLt
  have hl := range.last.isLt
  have taken : (rangeWords words range).length ≤ range.last.toNat - range.first.toNat + 1 := by
    simp [rangeWords]
  cases half <;> simp only [Half.column] <;> omega

/-- A host operation's words lie inside its row (R108). -/
theorem HostKind.wf_store (kind : HostKind) (m : Memory) (row : Row) (h : m.wf = true) (inRow : kind.inRow = true) :
    (kind.store m row).wf = true := by
  cases kind with
  | write start words => exact Memory.wf_writeList _ _ _ h (cellKey_lt _ _ _ (by simpa [HostKind.inRow] using inRow))
  | read start count => exact h
  | fill first final word =>
    simp only [HostKind.inRow, decide_eq_true_eq] at inRow
    refine Memory.wf_writeList _ _ _ h (cellKey_lt _ _ _ ?_)
    rw [List.length_replicate]
    omega

/-- Each part of an event keeps the array in canonical form and host operations inside one row. -/
theorem State.keptOwing_arraySafe : State.KeptOwing State.ArraySafe where
  alike := by
    intro s t same h
    simp only [State.watched, Prod.mk.injEq] at same
    obtain ⟨array, port, waiting, _⟩ := same
    exact h.of_same array waiting (by rw [port])
  setLane _ _ _ h := h.of_same rfl rfl rfl
  offer _ h := h.of_same (by simp) (by simp) (by simp)
  unsend h := h.of_same rfl rfl rfl
  acknowledge seq h := by
    rw [State.acknowledge_frame]
    exact h.of_same rfl rfl rfl
  answer _ _ _ h := by
    rw [State.answer_frame]
    exact h.of_same rfl rfl rfl
  refuse _ _ _ h := by
    rw [State.refuse_frame]
    exact h.of_same rfl rfl rfl
  enter _ _ _ h := h.of_same rfl rfl rfl
  handToOwner _ h := h.of_same rfl rfl rfl
  transmit h := by
    rw [State.transmit_frame]
    exact h.of_same rfl rfl rfl
  defaults _ h := ⟨h.memory, by simp [State.defaults], h.inFlight⟩
  joinHost op _ inRow h := by
    refine ⟨h.memory, fun x hx => ?_, h.inFlight⟩
    rcases List.mem_append.mp hx with old | new
    · exact h.waiting x old
    · rwa [List.mem_singleton.mp new]
  leaveHost op rest waiting h :=
    ⟨h.memory, fun x hx => h.waiting x (waiting ▸ List.mem_cons_of_mem op hx), h.inFlight⟩
  grantHost op rest res _ waiting h := by
    refine ⟨h.memory, fun x hx => h.waiting x (waiting ▸ List.mem_cons_of_mem op hx), ?_⟩
    intro f hf
    cases hf
    exact h.waiting op (waiting ▸ List.mem_cons_self)
  grantLane c res _ _ h := by
    refine ⟨h.memory, h.waiting, ?_⟩
    intro f hf
    cases hf
    dsimp only
    unfold LaneClaim.operation
    split <;> rfl
  freePort h := ⟨h.memory, h.waiting, fun f hf => nomatch hf⟩
  storeCommit res half words range h := ⟨Memory.wf_writeList _ _ _ h.memory (commit_inArray _ _ _ _), h.waiting, h.inFlight⟩
  storeHost op res t0 inFlight h :=
    ⟨HostKind.wf_store _ _ _ h.memory (h.inFlight _ inFlight), h.waiting, fun f hf => nomatch hf⟩
  clear h := ⟨rfl, h.waiting, h.inFlight⟩
  holdReset h := ⟨h.memory, by simp [State.holdReset, State.reset], fun f hf => nomatch hf⟩
  release rate trig h := by
    refine ⟨by simpa [State.release] using h.memory, by simpa [State.release] using h.waiting, ?_⟩
    intro f hf
    simp only [State.release, State.offer_port] at hf
    cases hf
    rfl
  owing _ h := h.of_same rfl rfl rfl

/-- Settles O55, by the walk through every command: the array changes at completions alone, inside one row. -/
theorem stepKeepsArraySafe : Obligations.StepKeepsArraySafe := by
  intro s t safe stepped
  exact (RunInvariant.of_owing State.keptOwing_arraySafe).step safe stepped

/-! ## The notice queue (R131, R77) -/

/-- The entries of the queue are numbered from `b` on, and the next number follows. -/
structure NoticeQueue.NumberedFrom (q : NoticeQueue) (b : Byte) : Prop where
  seqs : ∀ (i : Nat) e, q.entries[i]? = some e → e.seq = b + BitVec.ofNat 8 i
  next : q.nextSeq = b + BitVec.ofNat 8 q.entries.length

/-- The number after the `i` ones from `b` on. -/
theorem seq_succ (b : Byte) (i : Nat) : b + BitVec.ofNat 8 (i + 1) = b + 1 + BitVec.ofNat 8 i := by
  rw [BitVec.ofNat_add, BitVec.add_assoc, BitVec.add_comm (BitVec.ofNat 8 i)]
  rfl

/-- Consecutive entries have the numbers from the head's on. -/
theorem consecutive_iff (e : NoticeEntry) (es : List NoticeEntry) :
    consecutive (e :: es) = true ↔
      ∀ (i : Nat) x, (e :: es)[i]? = some x → x.seq = e.seq + BitVec.ofNat 8 i := by
  induction es generalizing e with
  | nil =>
    refine ⟨fun _ i x hx => ?_, fun _ => rfl⟩
    cases i with
    | zero => cases hx; simp
    | succ j => simp at hx
  | cons f es ih =>
    rw [consecutive, Bool.and_eq_true, decide_eq_true_eq, ih f]
    constructor
    · rintro ⟨after, rest⟩ i x hx
      cases i with
      | zero => cases hx; simp
      | succ j => rw [rest j x hx, after, seq_succ]
    · intro all
      have after : f.seq = e.seq + 1 := all 1 f rfl
      exact ⟨after, fun i x hx => by rw [all (i + 1) x hx, after, seq_succ]⟩

/-- The queue's invariant is that its numbers run on (R131). -/
theorem NoticeQueue.wf_iff (q : NoticeQueue) :
    q.wf = true ↔ q.entries.length ≤ 32 ∧ ∃ b, q.NumberedFrom b := by
  obtain ⟨entries, nextSeq, lost⟩ := q
  simp only [NoticeQueue.wf, Bool.and_eq_true, decide_eq_true_eq, and_assoc, and_congr_right_iff]
  intro _
  cases entries with
  | nil => simpa [consecutive] using ⟨nextSeq, ⟨by simp, by simp⟩⟩
  | cons e es =>
    have last : (e :: es)[es.length]? = some ((e :: es).getLast (by simp)) := by
      rw [List.getLast_eq_getElem]
      simp
    rw [consecutive_iff]
    simp only [List.getLast?_eq_getLast_of_ne_nil (List.cons_ne_nil e es), decide_eq_true_eq]
    constructor
    · rintro ⟨seqs, next⟩
      refine ⟨e.seq, seqs, ?_⟩
      rw [next, seqs _ _ last, List.length_cons, seq_succ]
      ac_rfl
    · rintro ⟨b, seqs, next⟩
      have first : e.seq = b := by simpa using seqs 0 e rfl
      subst first
      refine ⟨seqs, ?_⟩
      change nextSeq = e.seq + BitVec.ofNat 8 (es.length + 1) at next
      change ∀ (i : Nat) x, (e :: es)[i]? = some x → x.seq = e.seq + BitVec.ofNat 8 i at seqs
      rw [next, seqs _ _ last, seq_succ]
      ac_rfl

/-- Numbers alone count. -/
theorem NoticeQueue.NumberedFrom.of_seqs {q r : NoticeQueue} {b : Byte} (h : q.NumberedFrom b)
    (seqs : r.entries.map NoticeEntry.seq = q.entries.map NoticeEntry.seq) (next : r.nextSeq = q.nextSeq) :
    r.NumberedFrom b := by
  have len : r.entries.length = q.entries.length := by simpa using congrArg List.length seqs
  refine ⟨fun i e he => ?_, by rw [next, len, h.next]⟩
  have same : (q.entries[i]?).map NoticeEntry.seq = some e.seq := by
    rw [← List.getElem?_map, ← seqs, List.getElem?_map, he]
    rfl
  obtain ⟨f, hf, hs⟩ := Option.map_eq_some_iff.mp same
  rw [← hs]
  exact h.seqs i f hf

theorem NoticeQueue.wf_of_seqs {q r : NoticeQueue} (h : q.wf = true)
    (seqs : r.entries.map NoticeEntry.seq = q.entries.map NoticeEntry.seq) (next : r.nextSeq = q.nextSeq) :
    r.wf = true := by
  obtain ⟨room, b, hb⟩ := (NoticeQueue.wf_iff q).mp h
  have len : r.entries.length = q.entries.length := by simpa using congrArg List.length seqs
  exact (NoticeQueue.wf_iff r).mpr ⟨len ▸ room, b, hb.of_seqs seqs next⟩

theorem NoticeQueue.wf_join {q : NoticeQueue} (h : q.wf = true) (n : Notice) : (q.join n).wf = true := by
  obtain ⟨room, b, hb⟩ := (NoticeQueue.wf_iff q).mp h
  unfold NoticeQueue.join
  split
  · next fits =>
    have fits : q.entries.length < 32 := fits
    refine (NoticeQueue.wf_iff _).mpr ⟨by rw [List.length_append]; exact fits, b, ?_, ?_⟩
    · intro i e he
      rcases Nat.lt_or_ge i q.entries.length with old | past
      · rw [List.getElem?_append_left old] at he
        exact hb.seqs i e he
      · rw [List.getElem?_append_right past, List.getElem?_singleton] at he
        split at he
        · next last =>
          cases he
          rw [hb.next, Nat.le_antisymm (Nat.sub_eq_zero_iff_le.mp last) past]
        · cases he
    · rw [List.length_append, BitVec.ofNat_add, ← BitVec.add_assoc, ← hb.next]
      rfl
  · exact NoticeQueue.wf_of_seqs h rfl rfl

theorem NoticeQueue.wf_drop {q : NoticeQueue} (h : q.wf = true) (n : Nat) (held : n ≤ q.entries.length) :
    NoticeQueue.wf { q with entries := q.entries.drop n } = true := by
  obtain ⟨room, b, hb⟩ := (NoticeQueue.wf_iff q).mp h
  refine (NoticeQueue.wf_iff _).mpr ⟨by simp; omega, b + BitVec.ofNat 8 n, ?_, ?_⟩
  · intro i e he
    rw [List.getElem?_drop] at he
    rw [hb.seqs _ _ he, BitVec.ofNat_add, BitVec.add_assoc]
  · rw [hb.next, List.length_drop, BitVec.add_assoc, ← BitVec.ofNat_add]
    congr 2
    omega

/-- An ACK removes no more than is held (R133). -/
theorem NoticeQueue.ackCount_le (q : NoticeQueue) (seq : Byte) : q.ackCount seq ≤ q.entries.length := by
  unfold NoticeQueue.ackCount
  split
  · exact Nat.zero_le _
  · split
    · omega
    · exact Nat.zero_le _

theorem markSent_seqs (es : List NoticeEntry) : (markSent es).map NoticeEntry.seq = es.map NoticeEntry.seq := by
  induction es with
  | nil => rfl
  | cons e es ih =>
    unfold markSent
    split
    · rw [List.map_cons, ih, List.map_cons]
    · rfl

theorem State.wf_offer {s : State} (h : s.notices.wf = true) (n : Notice) : (s.offer n).notices.wf = true := by
  unfold State.offer
  split
  · exact h
  · exact NoticeQueue.wf_join h n

theorem State.wf_acknowledge {s : State} (h : s.notices.wf = true) (seq : Byte) : (s.acknowledge seq).notices.wf = true := by
  have dropped := NoticeQueue.wf_drop h (s.notices.ackCount seq) (s.notices.ackCount_le seq)
  unfold State.acknowledge
  dsimp only
  split
  · exact h
  · split
    · exact dropped
    · exact NoticeQueue.wf_of_seqs (State.wf_offer (s := { s with notices :=
        { s.notices with entries := s.notices.entries.drop (s.notices.ackCount seq) } }) dropped _) rfl rfl

/-- Each part of an event keeps the numbers of the notice queue running on. -/
theorem State.keptOwing_noticeRun : State.KeptOwing fun s => s.notices.wf = true where
  alike := by
    intro s t same h
    simp only [State.watched, Prod.mk.injEq] at same
    obtain ⟨_, _, _, _, _, notices, _⟩ := same
    rwa [notices]
  setLane _ _ _ h := h
  offer n h := State.wf_offer h n
  unsend h := NoticeQueue.wf_of_seqs h (by simp [NoticeQueue.unsend, Function.comp_def]) rfl
  acknowledge seq h := State.wf_acknowledge h seq
  answer _ _ _ h := by
    rw [State.answer_frame]
    exact h
  refuse _ _ _ h := by
    rw [State.refuse_frame]
    exact h
  enter _ _ _ h := h
  handToOwner _ h := h
  transmit {s} h := by
    rcases s.transmit_cases with e | ⟨r, rest, _, e⟩ | ⟨r, rest, _, _, e⟩ | ⟨n, _, e⟩ <;> rw [e]
    · exact h
    · exact h
    · exact h
    · exact NoticeQueue.wf_of_seqs h (markSent_seqs _) rfl
  defaults _ _ := rfl
  joinHost _ _ _ h := h
  leaveHost _ _ _ h := h
  grantHost _ _ _ _ _ h := h
  grantLane _ _ _ _ h := h
  freePort h := h
  storeCommit _ _ _ _ h := h
  storeHost _ _ _ _ h := h
  clear h := h
  holdReset _ := rfl
  release _ _ h := by
    simp only [State.release]
    refine State.wf_offer ?_ _
    exact h
  owing _ h := h

/-- Every state meets the property that asks for nothing. -/
theorem State.keptOwing_true : State.KeptOwing fun _ => True := by
  constructor
  · constructor <;> intros <;> trivial
  · intros
    trivial

/-- No part of an event that stands outside its end owes a LANE STALL, and its end leaves none owed (R77). -/
theorem State.runInvariant_noStall : RunInvariant (fun s => s.stalls = []) fun _ => True where
  kept :=
    { alike := by
        intro s t same h
        simp only [State.watched, Prod.mk.injEq] at same
        obtain ⟨_, _, _, _, _, _, stalls, _⟩ := same
        rwa [stalls]
      setLane := fun _ _ _ h => h
      offer := fun _ h => by simpa using h
      unsend := fun h => h
      acknowledge := fun _ h => by
        rw [State.acknowledge_frame]
        exact h
      answer := fun _ _ _ h => by simpa using h
      refuse := fun _ _ _ h => by
        rw [State.refuse_frame]
        exact h
      enter := fun _ _ _ h => h
      handToOwner := fun _ h => h
      transmit := fun h => by simpa using h
      defaults := fun _ h => h
      joinHost := fun _ _ _ h => h
      leaveHost := fun _ _ _ h => h
      grantHost := fun _ _ _ _ _ h => h
      grantLane := fun _ _ _ _ h => h
      freePort := fun h => h
      storeCommit := fun _ _ _ _ h => h
      storeHost := fun _ _ _ _ h => h
      clear := fun h => h
      holdReset := fun _ => rfl
      release := fun _ _ h => by simpa [State.release] using h }
  within := State.keptOwing_true
  enter := fun _ => trivial
  leave := fun h _ => h

/-- Settles O56, by the walk through every command, once for the numbers and once for the LANE STALLs owed. -/
theorem stepKeepsNoticeRun : Obligations.StepKeepsNoticeRun := by
  intro s t stepped
  exact ⟨fun wf => (RunInvariant.of_owing State.keptOwing_noticeRun).step wf stepped,
    fun none_owed => State.runInvariant_noStall.step none_owed stepped⟩

/-! ## The link (R144, R148, R149) -/

theorem State.LinkSafe.of_same {s t : State} (h : s.LinkSafe) (table : t.link.table = s.link.table)
    (replies : t.tx.replies = s.tx.replies) (replyCount : t.tx.replyCount = s.tx.replyCount) : t.LinkSafe := by
  refine ⟨table ▸ h.tags, ?_, replies ▸ h.refusals, replyCount ▸ h.replyCount⟩
  have places := h.places
  simp only [State.placesHeld] at places ⊢
  rwa [table, replies]

theorem State.LinkSafe.answer {s : State} (h : s.LinkSafe) (tag : Byte) (status : Status) (fields : ReplyFields) :
    (s.answer tag status fields).LinkSafe := by
  cases found : s.entryOf tag with
  | none => rwa [State.answer_none _ _ _ _ found]
  | some e =>
    rw [State.answer_some _ _ e _ _ found]
    have leaves : (s.link.table.filter fun x => x.tag ≠ tag).length < s.link.table.length :=
      List.length_filter_lt_length_iff_exists.mpr ⟨e, List.mem_of_find?_eq_some found,
        by simpa using List.find?_some found⟩
    refine ⟨(List.filter_sublist.map _).nodup h.tags, ?_, ?_, h.replyCount⟩
    · have places := h.places
      simp only [State.placesHeld, List.filter_append, List.length_append] at places ⊢
      simp only [decide_true, List.filter_cons_of_pos, List.filter_nil, List.length_singleton]
      omega
    · simpa using h.refusals

theorem State.LinkSafe.refuse {s : State} (h : s.LinkSafe) (tag code : Byte) (status : Status) :
    (s.refuse tag code status).LinkSafe := by
  rcases s.refuse_cases tag code status with ⟨e, room⟩ | e <;> rw [e]
  · refine ⟨h.tags, ?_, ?_, h.replyCount⟩
    · simpa [State.placesHeld, State.addReply] using h.places
    · simp only [State.addReply, List.filter_append, List.length_append]
      exact (Nat.add_le_add_left (List.length_filter_le _ _) _).trans room
  · exact h.of_same rfl rfl rfl

/-- A reply that leaves the list leaves room behind. -/
theorem State.LinkSafe.takeReply {s : State} (h : s.LinkSafe) {r : Reply} {rest : List Reply} {count : Nat}
    (replies : s.tx.replies = r :: rest) (room : count ≤ 4) : (s.takeReply r rest count).LinkSafe := by
  have shorter : rest.Sublist s.tx.replies := replies ▸ List.sublist_cons_self r rest
  have fewer := (shorter.filter fun r => r.kind = .answer).length_le
  have places := h.places
  refine ⟨h.tags, ?_, ((shorter.filter _).length_le).trans h.refusals, room⟩
  simp only [State.placesHeld, State.takeReply] at places ⊢
  omega

/-- Each part of an event keeps the limits of the open request table and the reply list. -/
theorem State.keptOwing_linkSafe : State.KeptOwing State.LinkSafe where
  alike := by
    intro s t same h
    simp only [State.watched, Prod.mk.injEq] at same
    obtain ⟨_, _, _, _, _, _, _, table, replies, replyCount⟩ := same
    exact h.of_same table replies replyCount
  setLane _ _ _ h := h.of_same rfl rfl rfl
  offer _ h := h.of_same (by simp) (by simp) (by simp)
  unsend h := h.of_same rfl rfl rfl
  acknowledge seq h := by
    rw [State.acknowledge_frame]
    exact h.of_same rfl rfl rfl
  answer tag status fields h := h.answer tag status fields
  refuse tag code status h := h.refuse tag code status
  enter {s} e room fresh h := by
    refine ⟨?_, ?_, h.refusals, h.replyCount⟩
    · have new := s.entryOf_none e.tag fresh
      simp only [List.map_append, List.map_cons, List.map_nil, List.nodup_append, List.nodup_singleton, true_and]
      refine ⟨h.tags, fun x hx y hy => ?_⟩
      obtain ⟨f, hf, rfl⟩ := List.mem_map.mp hx
      rw [List.mem_singleton.mp hy]
      exact new f hf
    · simp only [State.placesHeld, List.length_append, List.length_singleton] at room ⊢
      omega
  handToOwner {s} tag h := by
    have tags : (s.handToOwner tag).link.table.map Entry.tag = s.link.table.map Entry.tag := by
      simp only [State.handToOwner, List.map_map]
      refine List.map_congr_left fun e _ => ?_
      simp only [Function.comp_apply]
      split <;> rfl
    refine ⟨tags ▸ h.tags, ?_, h.refusals, h.replyCount⟩
    have len := congrArg List.length tags
    have places := h.places
    simp only [List.length_map, State.placesHeld] at len places ⊢
    rwa [len]
  transmit {s} h := by
    rcases s.transmit_cases with e | ⟨r, rest, replies, e⟩ | ⟨r, rest, replies, room, e⟩ | ⟨n, _, e⟩ <;> rw [e]
    · exact h
    · exact h.takeReply replies (Nat.zero_le _)
    · exact h.takeReply replies room
    · exact ⟨h.tags, h.places, h.refusals, Nat.zero_le _⟩
  defaults _ h := h.of_same rfl rfl rfl
  joinHost _ _ _ h := h.of_same rfl rfl rfl
  leaveHost _ _ _ h := h.of_same rfl rfl rfl
  grantHost _ _ _ _ _ h := h.of_same rfl rfl rfl
  grantLane _ _ _ _ h := h.of_same rfl rfl rfl
  freePort h := h.of_same rfl rfl rfl
  storeCommit _ _ _ _ h := h.of_same rfl rfl rfl
  storeHost _ _ _ _ h := h.of_same rfl rfl rfl
  clear h := h.of_same rfl rfl rfl
  holdReset _ := ⟨List.nodup_nil, Nat.zero_le _, Nat.zero_le _, Nat.zero_le _⟩
  release _ _ h := h.of_same (by simp [State.release]) (by simp [State.release]) (by simp [State.release])
  owing _ h := h.of_same rfl rfl rfl

/-- Settles O57, by the walk through every command: a place passes from the table to the reply list, and no command takes two. -/
theorem stepKeepsLinkLimits : Obligations.StepKeepsLinkLimits := by
  intro s t safe stepped
  exact (RunInvariant.of_owing State.keptOwing_linkSafe).step safe stepped

/-! ## The host array queue and the host share (R147, R55, R46) -/

theorem State.HostSafe.of_same {s t : State} (h : s.HostSafe) (port : t.port = s.port)
    (waiting : t.hostWaiting = s.hostWaiting) (age : t.hostClaimAge = s.hostClaimAge) : t.HostSafe := by
  refine ⟨?_, port ▸ h.grants, by rw [port, waiting]; exact h.noClaim, by rw [age, waiting]; exact h.age⟩
  have depth := h.depth
  unfold State.hostDepth at depth ⊢
  rwa [port, waiting]

theorem State.nextHostAge_none (s : State) (rest : List HostOp) : s.nextHostAge rest = none ↔ rest = [] := by
  cases rest <;> simp [State.nextHostAge]

theorem State.hostWaiting_length_le_hostDepth (s : State) : s.hostWaiting.length ≤ s.hostDepth :=
  Nat.le_add_right _ _

/-- With no host operation in flight the depth is the number that wait. -/
theorem State.hostDepth_of_free {s : State} (h : ∀ op res t0, s.port.inFlight ≠ some { op := .host op res, grantedAt := t0 }) :
    s.hostDepth = s.hostWaiting.length := by
  unfold State.hostDepth
  split
  · next op res t0 inFlight => exact absurd inFlight (h op res t0)
  · rfl

/-- Each part of an event keeps the limits of the host array queue and the host share. -/
theorem State.keptOwing_hostSafe : State.KeptOwing State.HostSafe where
  alike := by
    intro s t same h
    simp only [State.watched, Prod.mk.injEq] at same
    obtain ⟨_, port, waiting, age, _⟩ := same
    exact h.of_same port waiting age
  setLane _ _ _ h := h.of_same rfl rfl rfl
  offer _ h := h.of_same (by simp) (by simp) (by simp)
  unsend h := h.of_same rfl rfl rfl
  acknowledge seq h := by
    rw [State.acknowledge_frame]
    exact h.of_same rfl rfl rfl
  answer _ _ _ h := by
    rw [State.answer_frame]
    exact h.of_same rfl rfl rfl
  refuse _ _ _ h := by
    rw [State.refuse_frame]
    exact h.of_same rfl rfl rfl
  enter _ _ _ h := h.of_same rfl rfl rfl
  handToOwner _ h := h.of_same rfl rfl rfl
  transmit h := by
    rw [State.transmit_frame]
    exact h.of_same rfl rfl rfl
  defaults {s} _ h := by
    refine ⟨?_, Nat.zero_le _, fun _ => rfl, ⟨fun _ => rfl, fun _ => rfl⟩⟩
    have depth := h.depth
    simp only [State.hostDepth, State.defaults, List.length_nil] at depth ⊢
    omega
  joinHost {s} op room _ h := by
    refine ⟨?_, h.grants, fun none_waiting => absurd none_waiting (by simp [State.joinHost]), ?_⟩
    · simp only [State.hostDepth, State.joinHost, List.length_append, List.length_singleton] at room ⊢
      omega
    · have age := h.age
      simp only [State.joinHost, List.append_eq_nil_iff, List.cons_ne_self, and_false, iff_false]
      cases hw : s.hostWaiting <;> simp_all
  leaveHost {s} op rest waiting h := by
    refine ⟨?_, ?_, ?_, s.nextHostAge_none rest⟩
    · have depth := h.depth
      simp only [State.hostDepth, State.leaveHost, waiting, List.length_cons] at depth ⊢
      omega
    · have grants := h.grants
      simp only [State.leaveHost]
      split <;> omega
    · intro none_waiting
      simp [State.leaveHost, show rest = [] from none_waiting]
  grantHost {s} op rest res free waiting h := by
    refine ⟨?_, Nat.zero_le _, fun _ => rfl, s.nextHostAge_none rest⟩
    have depth := s.hostWaiting_length_le_hostDepth.trans h.depth
    rw [waiting, List.length_cons] at depth
    exact depth
  grantLane {s} c res free share h := by
    have noHost : (s.grantLane c res).hostDepth = s.hostWaiting.length := by
      refine State.hostDepth_of_free fun op r t0 => ?_
      simp only [State.grantLane, State.occupy, LaneClaim.operation]
      split <;> simp
    refine ⟨noHost ▸ s.hostWaiting_length_le_hostDepth.trans h.depth, ?_, ?_, h.age⟩
    · have grants := h.grants
      have noClaim := h.noClaim
      simp only [State.grantLane, State.occupy, List.isEmpty_iff]
      rcases share with none_waiting | room
      · rw [if_pos none_waiting]
        exact grants
      · split <;> omega
    · intro none_waiting
      have none_waiting : s.hostWaiting = [] := none_waiting
      simpa [State.grantLane, State.occupy, none_waiting] using h.noClaim none_waiting
  freePort {s} h :=
    ⟨s.hostWaiting_length_le_hostDepth.trans h.depth, h.grants, h.noClaim, h.age⟩
  storeCommit _ _ _ _ h := h.of_same rfl rfl rfl
  storeHost {s} _ _ _ _ h :=
    ⟨s.hostWaiting_length_le_hostDepth.trans h.depth, h.grants, h.noClaim, h.age⟩
  clear h := h.of_same rfl rfl rfl
  holdReset _ := ⟨Nat.zero_le _, Nat.zero_le _, fun _ => rfl, ⟨fun _ => rfl, fun _ => rfl⟩⟩
  release {s} rate trig h := by
    refine State.HostSafe.of_same (s := s.occupy .clear 0) ?_ (by simp [State.release, State.occupy])
      (by simp [State.release]) (by simp [State.release])
    exact ⟨s.hostWaiting_length_le_hostDepth.trans h.depth, Nat.zero_le _, fun _ => rfl, h.age⟩
  owing _ h := h.of_same rfl rfl rfl

/-- Settles O58, by the walk through every command: an operation joins below four, a grant below three. -/
theorem stepKeepsHostShare : Obligations.StepKeepsHostShare := by
  intro s t safe stepped
  exact (RunInvariant.of_owing State.keptOwing_hostSafe).step safe stepped

/-! ## The lanes (R6, R7, R12, R14, R36, R89) -/

/-- A property of every lane is kept where each lane update keeps it. -/
theorem State.keptOwing_lanes (R : Lane → Prop)
    (keeps : ∀ {ln x : Lane}, ln.Keeps (TracksActive fun s => ∀ l, R (s.lane l)) x → R ln → R x) (reset : R Lane.reset) :
    State.KeptOwing fun s => ∀ l, R (s.lane l) where
  alike := by
    intro s t same h l
    simp only [State.watched, Prod.mk.injEq] at same
    obtain ⟨_, _, _, _, lanes, _⟩ := same
    rw [State.lane, lanes]
    exact h l
  setLane {s} l x kept h m := by
    by_cases same : m = l
    · subst same
      rw [State.lane_setLane_same]
      exact keeps kept (h m)
    · rw [State.lane_setLane_other _ _ _ _ same]
      exact h m
  offer _ h l := by simpa using h l
  unsend h := h
  acknowledge seq h := by
    rw [State.acknowledge_frame]
    exact h
  answer _ _ _ h := by
    rw [State.answer_frame]
    exact h
  refuse _ _ _ h := by
    rw [State.refuse_frame]
    exact h
  enter _ _ _ h := h
  handToOwner _ h := h
  transmit h := by
    rw [State.transmit_frame]
    exact h
  defaults {s} _ h l := by
    rw [show (s.defaults _).lane l = (s.lane l).deviceReset s.now from PerLane.get_map _ _ _]
    exact keeps (Lane.Keeps.deviceReset _ _) (h l)
  joinHost _ _ _ h := h
  leaveHost _ _ _ h := h
  grantHost _ _ _ _ _ h := h
  grantLane {s} c res _ _ h m := by
    show R ((s.mapLane c.lane fun ln => ln.setSlot c.slot ((s.lane c.lane).slot c.slot).granted).lane m)
    by_cases same : m = c.lane
    · subst same
      rw [State.lane_mapLane_same]
      exact keeps (Lane.Keeps.granted _ _) (h c.lane)
    · rw [State.lane_mapLane_other _ _ _ _ same]
      exact h m
  freePort h := h
  storeCommit _ _ _ _ h := h
  storeHost _ _ _ _ h := h
  clear h := h
  holdReset _ l := by cases l <;> exact reset
  release {s} rate trig h l := by
    have lane : (s.release rate trig).lane l = { s.lane l with dividerStart := s.now } := by
      simp only [State.release, State.offer_lane]
      exact PerLane.get_map _ _ _
    rw [lane]
    exact keeps (ln := s.lane l) (x := { s.lane l with dividerStart := s.now })
      (Lane.Keeps.of_state rfl id rfl rfl rfl) (h l)
  owing _ h := h

theorem Lane.cuesSafe_reset : Lane.reset.CuesSafe := ⟨by decide, by decide, by decide⟩

theorem Lane.activeSafe_reset : Lane.reset.ActiveSafe := .of_none rfl

/-- Settles O59, by the walk through every command: a post alone adds cues, and its checks are those of the invariant. -/
theorem stepKeepsHeldCues : Obligations.StepKeepsHeldCues := by
  intro s t safe stepped
  exact (RunInvariant.of_owing (State.keptOwing_lanes Lane.CuesSafe (fun kept => kept.cues) Lane.cuesSafe_reset)).step
    safe stepped

/-- Settles O60, by the walk through every command: a lane starts or goes on with one slot ACTIVE, and a stop leaves none. -/
theorem stepKeepsOneActiveSlot : Obligations.StepKeepsOneActiveSlot := by
  intro s t safe stepped
  exact (RunInvariant.of_owing (State.keptOwing_lanes Lane.ActiveSafe (fun kept => kept.active fun _ h => h)
    Lane.activeSafe_reset)).step safe stepped

end Sys2Proof.Machine
end

section
/-! SUPPORT and the obligations of the STEP, of the arrival of a request, and of hard reset (R26, R48, R144, R155, R160). -/

namespace Sys2Proof.Machine

open Sys2Proof

/-! ## The step -/

/-- Settles O1: the step is defined by the queue's front. -/
theorem stepRunsFrontCommand : Obligations.StepRunsFrontCommand := by
  intro c rest s
  rfl

/-! ## The events of a moment (R26, R48, R142, R148) -/

/-- Wherever each event is put, the events of a moment are the same ones. -/
theorem interleave_perm (now : Nat) (events : List Instr) : (interleave now events).Perm events := by
  induction events with
  | nil => exact .refl _
  | cons c cs ih =>
    cases cs with
    | nil => exact .refl _
    | cons d ds =>
      have place : Config.dueAt now (d :: ds).length % ((interleave now (d :: ds)).length + 1) ≤
          (interleave now (d :: ds)).length := Nat.le_of_lt_succ (Nat.mod_lt _ (Nat.succ_pos _))
      exact (List.perm_insertIdx c _ place).trans (ih.cons c)

theorem mem_laneOrder (l : LaneId) : l ∈ laneOrder := by
  cases l <;> decide

theorem State.dividerDue_iff (s : State) (l : LaneId) :
    s.dividerDue l = true ↔
      ∃ d, (s.lane l).config.clock = .internal d ∧ (s.lane l).dividerStart + d * 25 ≤ s.now := by
  unfold State.dividerDue
  split
  · next d hd => simp [hd]
  · next hd => simp [hd]

theorem State.mem_portDue (s : State) (c : Instr) :
    c ∈ s.portDue ↔ ∃ f, s.port.inFlight = some f ∧ f.grantedAt + f.op.duration ≤ s.now ∧ c = f.op.completion := by
  unfold State.portDue
  split
  · next f hf => by_cases due : f.grantedAt + f.op.duration ≤ s.now <;> simp [hf, due]
  · next hf => simp [hf]

theorem State.mem_frameDue (s : State) (c : Instr) :
    c ∈ s.frameDue ↔ c = .transmitterFrameEnd ∧
      ∃ f, s.tx.sending = some f ∧ f.startedAt + f.frame.length * 10 * s.link.rate.bitNs ≤ s.now := by
  unfold State.frameDue
  split
  · next f hf =>
    by_cases due : f.startedAt + f.frame.length * 10 * s.link.rate.bitNs ≤ s.now <;> simp [hf, due]
  · next hf => simp [hf]

theorem State.mem_idleDue (s : State) (c : Instr) :
    c ∈ s.idleDue ↔ c = .idleExpiry ∧ s.link.receiver.state ≠ .hunting ∧
      s.link.receiver.lastStop + s.link.rate.idleNs ≤ s.now ∧
        Config.startBitInTime s.link.receiver.lastStop = false := by
  unfold State.idleDue
  have idle := s.idleOver_iff
  by_cases due : s.idleOver = true
  · obtain ⟨inFrame, passed⟩ := idle.mp due
    cases Config.startBitInTime s.link.receiver.lastStop <;> simp [due, inFrame, passed]
  · have early : ¬ (s.link.receiver.state ≠ .hunting ∧ s.link.receiver.lastStop + s.link.rate.idleNs ≤ s.now) :=
      fun h => due (idle.mpr h)
    simp only [due, Bool.false_and, Bool.false_eq_true, if_false, List.not_mem_nil, false_iff]
    exact fun ⟨_, inFrame, passed, _⟩ => early ⟨inFrame, passed⟩

/-- What falls at a moment, by its kind. -/
theorem State.mem_due (s : State) (c : Instr) :
    c ∈ s.due ↔
      (∃ l, s.dividerDue l = true ∧ .dividerExpiry l (Config.ldPins s.now l) (Config.lqvPin s.now l) = c) ∨
        c ∈ s.portDue ∨ c ∈ s.frameDue ∨ c ∈ s.idleDue := by
  simp only [State.due, List.mem_append, List.mem_map, List.mem_filter, mem_laneOrder, true_and, or_assoc]

/-- A completion is none of the other timers' events. -/
theorem Operation.completion_ne (op : Operation) :
    (∀ l ld lqv, op.completion ≠ .dividerExpiry l ld lqv) ∧ op.completion ≠ .transmitterFrameEnd ∧
      op.completion ≠ .idleExpiry := by
  cases op <;> simp [Operation.completion]

/-- Table 3-2: the operation holds the port for both halves where its columns lie in both. -/
theorem Operation.duration_host (op : HostOp) (res : Resolution) :
    (Operation.host op res).duration =
      match op.kind with
      | .write start words => if start < 256 ∧ 256 < start + words.length then 2560 else 1280
      | .read start count => if start < 256 ∧ 256 < start + count then 2560 else 1280
      | .fill first final _ => if first < 256 ∧ 256 ≤ final then 2560 else 1280 := by
  simp only [Operation.duration, HostOp.halves, Config.halfNs]
  cases op.kind with
  | write start words =>
    dsimp only
    have same : (start ≤ 255 ∧ 256 ≤ start + words.length - 1) ↔ (start < 256 ∧ 256 < start + words.length) := by omega
    simp only [same]
    split <;> rfl
  | read start count =>
    dsimp only
    have same : (start ≤ 255 ∧ 256 ≤ start + count - 1) ↔ (start < 256 ∧ 256 < start + count) := by omega
    simp only [same]
    split <;> rfl
  | fill first final word =>
    dsimp only
    have same : (first ≤ 255 ∧ 256 ≤ final) ↔ (first < 256 ∧ 256 ≤ final) := by omega
    simp only [same]
    split <;> rfl

theorem step_idle_low (s : State) (idle : s.pending = []) (low : s.resetn = false) : step s = .next s := by
  simp [step, idle, State.passTime, low]

/-- With no command waiting time passes, and the events due then are all that waits. -/
theorem step_idle_high (s : State) (idle : s.pending = []) (high : s.resetn = true) :
    step s = .next { s with now := s.now + 5, pending := interleave (s.now + 5) { s with now := s.now + 5 }.due } := by
  simp [step, idle, State.passTime, high]

/-- Settles O2, by the timers one by one: each puts its own event among those due. -/
theorem idleStepPassesTime : Obligations.IdleStepPassesTime := by
  intro s
  refine ⟨step_idle_low s, fun idle high => ⟨_, interleave_perm _ _, step_idle_high s idle high⟩, fun l => ?_,
    fun f hf => ?_, fun hfree => ?_, ?_, fun _ _ _ _ => ⟨rfl, rfl⟩, Operation.duration_host, rfl, ?_, rfl⟩
  · simp [State.mem_due, State.mem_portDue, State.mem_frameDue, State.mem_idleDue, ← State.dividerDue_iff,
      fun (op : Operation) l ld lqv => (op.completion_ne.1 l ld lqv).symm]
  · obtain ⟨noDivider, noFrame, noIdle⟩ := f.op.completion_ne
    simp [State.mem_due, State.mem_portDue, State.mem_frameDue, State.mem_idleDue, hf, noFrame, noIdle,
      fun l ld lqv => (noDivider l ld lqv).symm]
  · simp [State.mem_due, State.mem_portDue, State.mem_frameDue, State.mem_idleDue, hfree]
  · simp [State.mem_due, State.mem_portDue, State.mem_frameDue, State.mem_idleDue,
      fun op : Operation => op.completion_ne.2.1.symm]
  · simp [State.mem_due, State.mem_portDue, State.mem_frameDue, State.mem_idleDue,
      fun op : Operation => op.completion_ne.2.2.symm]

/-! ## A request by its code (Table 10-6) -/

/-- A request frame, whatever its code: its arrival, and its service by the code. -/
theorem exec_requestOf (code tag : Byte) (payload : List Byte) (s : State) :
    exec (requestOf code tag payload) s =
      s.happen fun s => s.receiveRequest tag code payload (serviceOf code) := by
  have named : code = BitVec.ofNat 8 code.toNat := by simp
  unfold requestOf
  split <;> rename_i number
  case h_23 => rfl
  all_goals
    rw [number] at named
    subst named
    rfl

/-! ## Arrival (R144) -/

/-- The second check of R144: with every place held the request is refused NOROOM and counted. -/
theorem State.receive_full (s : State) (tag code : Byte) (payload : List Byte) (serve : Service)
    (arrives : s.Arrives payload) (noReset : s.link.deviceReset = none) (full : 8 ≤ s.placesHeld) :
    s.happen (fun s => s.receiveRequest tag code payload serve) =
      .next (({ s.heard with link := { s.heard.link with noRoom := satInc s.link.noRoom } }).refused
        tag code .noRoom).transmit := by
  have outside : s.heard.link.deviceReset.isSome = false := Option.isSome_eq_false_iff.mpr (by simp [State.heard, noReset])
  have held : Config.tablePlaces ≤ s.heard.placesHeld := full
  rw [State.happen_high s _ arrives.resetn]
  simp only [State.receiveRequest, arrives.fits, if_true, State.hunt_nextEvent, State.arrive, outside, held,
    State.refuse_eq_refused, Bool.false_eq_true, if_false]
  rfl

/-- The third check of R144: a tag that an open request has is refused TAG IN USE. -/
theorem State.receive_tagInUse (s : State) (tag code : Byte) (payload : List Byte) (serve : Service)
    (arrives : s.Arrives payload) (noReset : s.link.deviceReset = none) (place : s.placesHeld < 8)
    (used : ∃ e ∈ s.link.table, e.tag = tag) :
    s.happen (fun s => s.receiveRequest tag code payload serve) = .next (s.heard.refused tag code .tagInUse).transmit := by
  have outside : s.heard.link.deviceReset.isSome = false := Option.isSome_eq_false_iff.mpr (by simp [State.heard, noReset])
  have free : ¬ Config.tablePlaces ≤ s.heard.placesHeld := Nat.not_le.mpr place
  have taken : (s.heard.entryOf tag).isSome = true := s.heard.entryOf_isSome tag used
  rw [State.happen_high s _ arrives.resetn]
  simp only [State.receiveRequest, arrives.fits, if_true, State.hunt_nextEvent, State.arrive, outside, free, taken,
    State.refuse_eq_refused, Bool.false_eq_true, if_false]

/-- Settles O3: the checks of R144 stand before the service, so they are the same for every code. -/
theorem arrivalRefusalsInOrder : Obligations.ArrivalRefusalsInOrder := by
  intro code tag payload s arrives
  rw [exec_requestOf]
  exact ⟨s.receive_deviceReset tag code payload _ arrives, s.receive_full tag code payload _ arrives,
    s.receive_tagInUse tag code payload _ arrives⟩

/-! ## Hard reset (R155, R160) -/

/-- Settles O52: every command but the two of RESETN is an event, and an event asks for RESETN high. -/
theorem hardResetHoldsResetValues : Obligations.HardResetHoldsResetValues := by
  intro s
  refine ⟨rfl, fun c low notRelease notReset => ?_⟩
  cases c with
  | resetnRelease a b t => exact absurd rfl (notRelease a b t)
  | hardReset => exact absurd rfl notReset
  | _ => exact if_neg (Bool.eq_false_iff.mp low)

theorem rateOf_eq (rate1 rate0 : Bool) :
    rateOf rate1 rate0 = if rate1 then (if rate0 then .four else .two) else (if rate0 then .one else .half) := by
  cases rate1 <;> cases rate0 <;> rfl

/-- Settles O53: outside a device reset the START of the release joins the queue. -/
theorem releaseStartsTheClear : Obligations.ReleaseStartsTheClear := by
  intro rate1 rate0 trig s low noReset
  have run : exec (.resetnRelease rate1 rate0 trig) s =
      .next (s.nextEvent.release (rateOf rate1 rate0) trig).transmit := if_neg (by simp [low])
  rw [run, rateOf_eq]
  exact congrArg (fun t => Host.Outcome.next (State.transmit t)) (State.offer_eq _ _ noReset)

/-- Settles O54, clause by clause: nothing is held in hard reset. -/
theorem resetIsSafe : Obligations.ResetIsSafe where
  array := ⟨State.reset_array_wf, nofun, nofun⟩
  notices := rfl
  stalls := rfl
  link := ⟨List.nodup_nil, Nat.zero_le _, Nat.zero_le _, Nat.zero_le _⟩
  host := ⟨Nat.zero_le _, Nat.zero_le _, fun _ => rfl, ⟨fun _ => rfl, fun _ => rfl⟩⟩
  cues l := by cases l <;> exact Lane.cuesSafe_reset
  active l := by cases l <;> exact Lane.activeSafe_reset

/-! ## The array clear (R105, R106) -/

theorem exec_arrayClearCompletion_clear {s : State} {t0 : Nat} (high : s.resetn = true)
    (clearing : s.port.inFlight = some { op := .clear, grantedAt := t0 }) :
    exec .arrayClearCompletion s = .next s.nextEvent.freePort.finishClear.endEvent.transmit := by
  change execArrayClearCompletion s = _
  rw [execArrayClearCompletion, State.happen_high s _ high, show s.nextEvent.port = s.port from rfl, clearing]

/-- With no device reset in progress there is none to end (R154). -/
theorem State.endDeviceReset_none {s : State} (h : s.link.deviceReset = none) : s.endDeviceReset = s := by
  simp only [State.endDeviceReset, h]

/-- The end of a device reset: its OK, then START (R154). -/
theorem State.endDeviceReset_some {s : State} {tag : Byte} {e : Entry} (h : s.link.deviceReset = some tag)
    (entry : s.entryOf tag = some e) :
    s.endDeviceReset =
      { s with
        link := { s.link with table := s.link.table.filter fun x => x.tag ≠ tag, deviceReset := none }
        tx := { s.tx with replies := s.tx.replies ++
          [{ kind := .answer, tag := tag, code := e.code, status := .ok, fields := .none }] }
        notices := s.notices.join (.start .request s.link.rate) } := by
  have found : State.entryOf { s with link := { s.link with deviceReset := none } } tag = some e := entry
  simp only [State.endDeviceReset, h, State.answer_some _ tag e _ _ found]
  exact State.offer_eq _ _ rfl

/-- Settles O41: the cleared array lists no word, and the end of a device reset comes ahead of ARRAY READY. -/
theorem clearCompletionMakesArrayReady : Obligations.ClearCompletionMakesArrayReady := by
  intro s t0 high clearing
  refine ⟨[], fun _ => rfl, fun noReset => ?_, fun tag e inReset entry => ?_⟩ <;>
    rw [exec_arrayClearCompletion_clear high clearing, State.finishClear]
  · rw [State.endDeviceReset_none (by exact noReset), State.offer_eq _ _ (by exact noReset)]
    rfl
  · rw [State.endDeviceReset_some (e := e) (by exact inReset) (by exact entry), State.offer_eq _ _ rfl]
    rfl

end Sys2Proof.Machine
end

section
/-! SUPPORT and the obligations of the DECODER: what the payload bytes read as, and the checks of R145 on them (R5, R11,
R23, R42, R45, R109 to R111, R158, Tables 9-4, 10-3, 10-4 and 10-6). -/

namespace Sys2Proof.Machine

open Sys2Proof

/-! ## Single fields out of range -/

theorem readLane_eq_none {b : Byte} (h : 4 ≤ b.toNat) : readLane b = none := by
  unfold readLane
  split <;> (try omega)
  rfl

theorem readGroup_eq_none {b : Byte} (h : b.toNat = 0 ∨ 3 ≤ b.toNat) : readGroup b = none := by
  unfold readGroup
  split <;> (try omega)
  rfl

theorem readMembership_eq_none {b : Byte} (h : 3 ≤ b.toNat) : readMembership b = none := by
  unfold readMembership
  split <;> (try omega)
  rfl

theorem readBit_eq_none {b : Byte} (h : 2 ≤ b.toNat) : readBit b = none := by
  unfold readBit
  split <;> (try omega)
  rfl

theorem readHalf_eq_none {b : Byte} (h : 2 ≤ b.toNat) : readHalf b = none := by
  unfold readHalf
  split <;> (try omega)
  rfl

theorem readMode_eq_none {b : Byte} (h : 2 ≤ b.toNat) : readMode b = none := by
  unfold readMode
  split <;> (try omega)
  rfl

theorem readClock_eq_none {b : Byte} {divider : Nat} (h : 2 ≤ b.toNat ∨ (b.toNat = 0 ∧ divider < 2)) :
    readClock b divider = none := by
  unfold readClock
  split <;> (try omega)
  · exact if_neg (by omega)
  · rfl

theorem readStall_eq_none {b : Byte} (h : 5 ≤ b.toNat) : readStall b = none := by
  unfold readStall
  split <;> (try omega)
  rfl

theorem readDry_eq_none {b : Byte} (h : 2 ≤ b.toNat) : readDry b = none := by
  unfold readDry
  split <;> (try omega)
  rfl

theorem readStop_eq_none {b : Byte} (h : 2 ≤ b.toNat) : readStop b = none := by
  unfold readStop
  split <;> (try omega)
  rfl

theorem readRowRef_eq_none {kind lo hi : Byte}
    (h : 2 ≤ kind.toNat ∨ (kind.toNat = 0 ∧ 2048 ≤ pairNat lo hi) ∨ (kind.toNat = 1 ∧ 64 ≤ pairNat lo hi)) :
    readRowRef kind lo hi = none := by
  unfold readRowRef
  split
  · rw [readRow_eq_none (by omega)]
    rfl
  · rw [readAlias_eq_none (by omega)]
    rfl
  · rfl

theorem readReps_eq_none {n : Nat} (h : n = 0 ∨ (255 ≤ n ∧ n ≠ 0x8000)) : readReps n = none := by
  unfold readReps
  rw [if_neg (by omega), if_neg (by omega)]

theorem rangeInRow_eq_false {start count : Nat} (h : count = 0 ∨ 512 < start + count) :
    rangeInRow start count = false := by
  by_contra held
  simp only [rangeInRow, Bool.not_eq_false, Bool.and_eq_true, decide_eq_true_eq] at held
  omega

/-! ## The cue record (Table 10-4) -/

/-- A cue record with one field out of its range reads as no cue (R5). -/
theorem readCue_eq_none {id kind lo hi half tap last repLo repHi flags : Byte}
    (h : readRowRef kind lo hi = none ∨ readHalf half = none ∨ readReps (pairNat repLo repHi) = none ∨
      32 ≤ flags.toNat ∨ (flags.getLsbD 4 = true ∧ last.toNat < tap.toNat)) :
    readCue [id, kind, lo, hi, half, tap, last, repLo, repHi, flags] = none := by
  simp only [readCue]
  split
  · next hRef hHalf hReps =>
    rw [hRef, hHalf, hReps] at h
    refine if_neg fun inRange => ?_
    rcases h with bad | bad | bad | bad | ⟨present, below⟩
    · cases bad
    · cases bad
    · cases bad
    · omega
    · rw [if_pos present] at inRange
      omega
  · rfl

/-- One record that reads as no cue spoils the batch, wherever it stands (R11). -/
theorem readCues_eq_none {n : Nat} {before record after : List Byte} (ten : record.length = 10)
    (whole : before.length % 10 = 0) (total : before.length + 10 + after.length = 10 * n) (bad : readCue record = none) :
    readCues n (before ++ record ++ after) = none := by
  induction n generalizing before with
  | zero => omega
  | succ n ih =>
    rw [readCues]
    rcases Nat.eq_zero_or_pos before.length with first | later
    · rw [List.length_eq_zero_iff.mp first, List.nil_append, List.take_append_of_le_length (by omega),
        List.take_of_length_le (by omega), bad]
    · have rest : (before ++ record ++ after).drop 10 = before.drop 10 ++ record ++ after := by
        rw [List.append_assoc, List.drop_append_of_le_length (by omega), ← List.append_assoc]
      rw [rest, ih (before := before.drop 10) (by rw [List.length_drop]; omega) (by rw [List.length_drop]; omega)]
      split
      · next hrest => cases hrest
      · rfl

/-! ## Payloads of a wrong length (check 2) -/

theorem parseLane_malformed {bs : List Byte} (h : bs.length ≠ 1) : parseLane bs = .malformed := by
  unfold parseLane
  split
  · exact absurd rfl h
  · rfl

theorem parseLaneConfig_malformed {bs : List Byte} (h : bs.length ≠ 9) : parseLaneConfig bs = .malformed := by
  unfold parseLaneConfig
  split
  · exact absurd rfl h
  · rfl

theorem parseLaneStop_malformed {bs : List Byte} (h : bs.length ≠ 2) : parseLaneStop bs = .malformed := by
  unfold parseLaneStop
  split
  · exact absurd rfl h
  · rfl

theorem parseLaneStatus_malformed {bs : List Byte} (h : bs.length ≠ 2) : parseLaneStatus bs = .malformed := by
  unfold parseLaneStatus
  split
  · exact absurd rfl h
  · rfl

theorem parseRowRead_malformed {bs : List Byte} (h : bs.length ≠ 7) : parseRowRead bs = .malformed := by
  unfold parseRowRead
  split
  · exact absurd rfl h
  · rfl

theorem parseRowFill_malformed {bs : List Byte} (h : bs.length ≠ 8) : parseRowFill bs = .malformed := by
  unfold parseRowFill
  split
  · exact absurd rfl h
  · rfl

theorem parseAliasBind_malformed {bs : List Byte} (h : bs.length ≠ 3) : parseAliasBind bs = .malformed := by
  unfold parseAliasBind
  split
  · exact absurd rfl h
  · rfl

theorem parseAlias_malformed {bs : List Byte} (h : bs.length ≠ 1) : parseAlias bs = .malformed := by
  unfold parseAlias
  split
  · exact absurd rfl h
  · rfl

theorem parseGroupConfig_malformed {bs : List Byte} (h : bs.length ≠ 3) : parseGroupConfig bs = .malformed := by
  unfold parseGroupConfig
  split
  · exact absurd rfl h
  · rfl

theorem parseGroup_malformed {bs : List Byte} (h : bs.length ≠ 1) : parseGroup bs = .malformed := by
  unfold parseGroup
  split
  · exact absurd rfl h
  · rfl

theorem parseClear_malformed {bs : List Byte} (h : bs.length ≠ 1) : parseClear bs = .malformed := by
  unfold parseClear
  split
  · exact absurd rfl h
  · rfl

theorem parseCuePost_malformed {lane count : Byte} {rest : List Byte} (h : rest.length ≠ 10 * count.toNat) :
    parseCuePost (lane :: count :: rest) = .malformed := if_pos h

theorem parseRowWrite_malformed {kind lo hi sLo sHi kLo kHi : Byte} {words : List Byte}
    (h : words.length ≠ pairNat kLo kHi) :
    parseRowWrite (kind :: lo :: hi :: sLo :: sHi :: kLo :: kHi :: words) = .malformed := if_pos h

/-! ## Payloads with a field out of range (check 3) -/

theorem parseLane_badField {b : Byte} (h : 4 ≤ b.toNat) : parseLane [b] = .badField := by
  simp only [parseLane, readLane_eq_none h, Parsed.ofOption]

theorem parseGroup_badField {b : Byte} (h : b.toNat = 0 ∨ 3 ≤ b.toNat) : parseGroup [b] = .badField := by
  simp only [parseGroup, readGroup_eq_none h, Parsed.ofOption]

theorem parseClear_badField {b : Byte} (h : 2 ≤ b.toNat) : parseClear [b] = .badField := by
  simp only [parseClear, readBit_eq_none h, Parsed.ofOption]

theorem parseLaneStop_badField {lane b : Byte} (h : 4 ≤ lane.toNat ∨ 2 ≤ b.toNat) :
    parseLaneStop [lane, b] = .badField := by
  simp only [parseLaneStop]
  split
  · next hLane hStop =>
    rcases h with bad | bad
    · cases hLane.symm.trans (readLane_eq_none bad)
    · cases hStop.symm.trans (readStop_eq_none bad)
  · rfl

theorem parseLaneStatus_badField {lane b : Byte} (h : 4 ≤ lane.toNat ∨ 2 ≤ b.toNat) :
    parseLaneStatus [lane, b] = .badField := by
  simp only [parseLaneStatus]
  split
  · next hLane hClear =>
    rcases h with bad | bad
    · cases hLane.symm.trans (readLane_eq_none bad)
    · cases hClear.symm.trans (readBit_eq_none bad)
  · rfl

theorem parseLaneConfig_badField {lane mode clock dLo dHi idle stall dry group : Byte}
    (h : 4 ≤ lane.toNat ∨ 2 ≤ mode.toNat ∨ 2 ≤ clock.toNat ∨ (clock.toNat = 0 ∧ pairNat dLo dHi < 2) ∨
      5 ≤ stall.toNat ∨ 2 ≤ dry.toNat ∨ 3 ≤ group.toNat) :
    parseLaneConfig [lane, mode, clock, dLo, dHi, idle, stall, dry, group] = .badField := by
  simp only [parseLaneConfig]
  split
  · next hLane hMode hClock hStall hDry hGroup =>
    rcases h with bad | bad | bad | bad | bad | bad | bad
    · cases hLane.symm.trans (readLane_eq_none bad)
    · cases hMode.symm.trans (readMode_eq_none bad)
    · cases hClock.symm.trans (readClock_eq_none (.inl bad))
    · cases hClock.symm.trans (readClock_eq_none (.inr bad))
    · cases hStall.symm.trans (readStall_eq_none bad)
    · cases hDry.symm.trans (readDry_eq_none bad)
    · cases hGroup.symm.trans (readMembership_eq_none bad)
  · rfl

/-- A row reference or a range of columns that does not read. -/
theorem parseRowWrite_badField {kind lo hi sLo sHi kLo kHi : Byte} {words : List Byte}
    (h : readRowRef kind lo hi = none ∨ rangeInRow (pairNat sLo sHi) (pairNat kLo kHi) = false)
    (length : words.length = pairNat kLo kHi) :
    parseRowWrite (kind :: lo :: hi :: sLo :: sHi :: kLo :: kHi :: words) = .badField := by
  simp only [parseRowWrite, length, ne_eq, not_true_eq_false, if_false]
  split
  · next hRef hRange =>
    rcases h with bad | bad
    · cases hRef.symm.trans bad
    · cases hRange.symm.trans bad
  · rfl

theorem parseRowRead_badField {kind lo hi sLo sHi kLo kHi : Byte}
    (h : readRowRef kind lo hi = none ∨ rangeInRow (pairNat sLo sHi) (pairNat kLo kHi) = false) :
    parseRowRead [kind, lo, hi, sLo, sHi, kLo, kHi] = .badField := by
  simp only [parseRowRead]
  split
  · next hRef hRange =>
    rcases h with bad | bad
    · cases hRef.symm.trans bad
    · cases hRange.symm.trans bad
  · rfl

theorem parseRowFill_badField {kind lo hi fLo fHi tLo tHi word : Byte}
    (h : readRowRef kind lo hi = none ∨ 511 < pairNat tLo tHi ∨ pairNat tLo tHi < pairNat fLo fHi) :
    parseRowFill [kind, lo, hi, fLo, fHi, tLo, tHi, word] = .badField := by
  simp only [parseRowFill]
  split
  · next hRef hRange =>
    rw [decide_eq_true_eq] at hRange
    rcases h with bad | bad | bad
    · cases hRef.symm.trans bad
    · omega
    · omega
  · rfl

theorem parseCuePost_badCount {lane count : Byte} {rest : List Byte} (length : rest.length = 10 * count.toNat)
    (h : count.toNat = 0 ∨ 8 < count.toNat) : parseCuePost (lane :: count :: rest) = .badField := by
  simp only [parseCuePost, length, ne_eq, not_true_eq_false, if_false]
  exact if_pos (by omega)

theorem parseCuePost_badField {lane count : Byte} {rest : List Byte} (length : rest.length = 10 * count.toNat)
    (h : readLane lane = none ∨ readCues count.toNat rest = none) : parseCuePost (lane :: count :: rest) = .badField := by
  simp only [parseCuePost, length, ne_eq, not_true_eq_false, if_false]
  split
  · rfl
  · split
    · next hLane hCues =>
      rcases h with bad | bad
      · cases hLane.symm.trans bad
      · cases hCues.symm.trans bad
    · rfl

/-! ## The dispatch of a code (R145) -/

section

variable {α : Type} {code tag : Byte} {payload : List Byte} {s : State} {parse : List Byte → Parsed α}
  {owner : Entry → α → State → State}

/-- Check 2 of R145, for the request of a code. -/
theorem exec_requestOf_malformed (service : serviceOf code = dispatchTo parse owner) (admits : s.Admits tag payload)
    (bad : parse payload = .malformed) :
    exec (requestOf code tag payload) s = .next (s.replied tag code .malformed .none).transmit := by
  rw [exec_requestOf, service]
  exact s.receive_malformed tag code payload parse owner admits bad

/-- Check 3 of R145, for the request of a code. -/
theorem exec_requestOf_badField (service : serviceOf code = dispatchTo parse owner) (admits : s.Admits tag payload)
    (bad : parse payload = .badField) :
    exec (requestOf code tag payload) s = .next (s.replied tag code .badField .none).transmit := by
  rw [exec_requestOf, service]
  exact s.receive_badField tag code payload parse owner admits bad

end

/-- A code outside Table 10-6 has no service of its own. -/
theorem serviceOf_unknown {code : Byte} (h : code ∉ requestCodes) : serviceOf code = serveUnknown := by
  have named : code = BitVec.ofNat 8 code.toNat := by simp
  unfold serviceOf
  split <;> rename_i number
  case h_23 => rfl
  all_goals exact absurd (by rw [named, number]; decide) h

/-- Check 1 of R145. -/
theorem exec_unknownRequest {code tag : Byte} {payload : List Byte} {s : State} (admits : s.Admits tag payload)
    (h : code ∉ requestCodes) :
    exec (.unknownRequest tag code payload) s = .next (s.replied tag code .unknownRequest .none).transmit := by
  change s.happen (fun s => s.receiveRequest tag code payload (serviceOf code)) = _
  rw [serviceOf_unknown h, State.receive_admitted s tag code payload _ admits, serveUnknown,
    State.answer_opened s _ tag code payload .received _ _ admits rfl]
  rfl

/-- Settles O4: each check is made on the payload as it reads, so each part is one reading that fails. -/
theorem dispatchChecksCodeAndLength : Obligations.DispatchChecksCodeAndLength := by
  intro code tag payload s admits
  refine ⟨exec_unknownRequest admits, fun n listed length => ?_, fun lane count rest shape => ⟨fun wrong => ?_,
    fun right count => ?_⟩, fun kind lo hi sLo sHi kLo kHi rest shape wrong => ?_, fun b shape bad code listed => ?_,
    fun b shape bad code listed => ?_, ?_⟩
  · simp only [List.mem_cons, Prod.mk.injEq, List.not_mem_nil, or_false] at listed
    rcases listed with ⟨rfl, rfl⟩ | ⟨rfl, rfl⟩ | ⟨rfl, rfl⟩ | ⟨rfl, rfl⟩ | ⟨rfl, rfl⟩ | ⟨rfl, rfl⟩ | ⟨rfl, rfl⟩ |
      ⟨rfl, rfl⟩ | ⟨rfl, rfl⟩ | ⟨rfl, rfl⟩ | ⟨rfl, rfl⟩ | ⟨rfl, rfl⟩ | ⟨rfl, rfl⟩ | ⟨rfl, rfl⟩ | ⟨rfl, rfl⟩ |
      ⟨rfl, rfl⟩ | ⟨rfl, rfl⟩ | ⟨rfl, rfl⟩ | ⟨rfl, rfl⟩
    · exact exec_requestOf_malformed (owner := ownCueFlush) rfl admits (parseLane_malformed length)
    · exact exec_requestOf_malformed (owner := ownCueList) rfl admits (parseLane_malformed length)
    · exact exec_requestOf_malformed (owner := ownLaneConfig) rfl admits (parseLaneConfig_malformed length)
    · exact exec_requestOf_malformed (owner := ownLaneStart) rfl admits (parseLane_malformed length)
    · exact exec_requestOf_malformed (owner := ownLaneStop) rfl admits (parseLaneStop_malformed length)
    · exact exec_requestOf_malformed (owner := ownLaneReset) rfl admits (parseLane_malformed length)
    · exact exec_requestOf_malformed (owner := ownLaneStatus) rfl admits (parseLaneStatus_malformed length)
    · exact exec_requestOf_malformed (owner := ownHostOp) rfl admits (parseRowRead_malformed length)
    · exact exec_requestOf_malformed (owner := ownHostOp) rfl admits (parseRowFill_malformed length)
    · exact exec_requestOf_malformed (owner := ownAliasBind) rfl admits (parseAliasBind_malformed length)
    · exact exec_requestOf_malformed (owner := ownAliasUnbind) rfl admits (parseAlias_malformed length)
    · exact exec_requestOf_malformed (owner := ownAliasQuery) rfl admits (parseAlias_malformed length)
    · exact exec_requestOf_malformed (owner := ownGroupConfig) rfl admits (parseGroupConfig_malformed length)
    · exact exec_requestOf_malformed (owner := ownGroupGo) rfl admits (parseGroup_malformed length)
    · exact exec_requestOf_malformed (owner := ownGroupStop) rfl admits (parseGroup_malformed length)
    · exact exec_requestOf_malformed (owner := ownGroupStatus) rfl admits (parseGroup_malformed length)
    · exact exec_requestOf_malformed (owner := ownNoticeResend) rfl admits
        (parseNothing_malformed (fun none => length (List.length_eq_zero_iff.mpr none)))
    · exact exec_requestOf_malformed (owner := ownDeviceStatus) rfl admits (parseClear_malformed length)
    · exact exec_requestOf_malformed (owner := ownDeviceReset) rfl admits
        (parseNothing_malformed (fun none => length (List.length_eq_zero_iff.mpr none)))
  · subst shape
    exact exec_requestOf_malformed (code := 0x10) (owner := ownCuePost) rfl admits (parseCuePost_malformed wrong)
  · subst shape
    exact exec_requestOf_badField (code := 0x10) (owner := ownCuePost) rfl admits (parseCuePost_badCount right count)
  · subst shape
    exact exec_requestOf_malformed (code := 0x30) (owner := ownHostOp) rfl admits (parseRowWrite_malformed wrong)
  · subst shape
    simp only [List.mem_cons, List.not_mem_nil, or_false] at listed
    rcases listed with rfl | rfl | rfl | rfl
    · exact exec_requestOf_badField (owner := ownCueFlush) rfl admits (parseLane_badField bad)
    · exact exec_requestOf_badField (owner := ownCueList) rfl admits (parseLane_badField bad)
    · exact exec_requestOf_badField (owner := ownLaneStart) rfl admits (parseLane_badField bad)
    · exact exec_requestOf_badField (owner := ownLaneReset) rfl admits (parseLane_badField bad)
  · subst shape
    simp only [List.mem_cons, List.not_mem_nil, or_false] at listed
    rcases listed with rfl | rfl | rfl
    · exact exec_requestOf_badField (owner := ownGroupGo) rfl admits (parseGroup_badField bad)
    · exact exec_requestOf_badField (owner := ownGroupStop) rfl admits (parseGroup_badField bad)
    · exact exec_requestOf_badField (owner := ownGroupStatus) rfl admits (parseGroup_badField bad)
  · refine ⟨?_, ?_, ?_, ?_, ?_, ?_, ?_⟩
    · rintro lane count rest rfl length bad
      exact exec_requestOf_badField (owner := ownCuePost) rfl admits
        (parseCuePost_badField length (.inl (readLane_eq_none bad)))
    · rintro lane count before id kind lo hi half tap last repLo repHi flags after rfl whole total bad
      have record : readCue [id, kind, lo, hi, half, tap, last, repLo, repHi, flags] = none := by
        refine readCue_eq_none ?_
        rcases bad with bad | bad | bad | bad | bad | bad
        · exact .inl (readRowRef_eq_none bad)
        · exact .inr (.inl (readHalf_eq_none bad))
        · exact .inr (.inr (.inl (readReps_eq_none (.inl bad))))
        · exact .inr (.inr (.inl (readReps_eq_none (.inr bad))))
        · exact .inr (.inr (.inr (.inl bad)))
        · exact .inr (.inr (.inr (.inr bad)))
      exact exec_requestOf_badField (owner := ownCuePost) rfl admits
        (parseCuePost_badField (by simp only [List.length_append]; exact total) (.inr (readCues_eq_none rfl whole total record)))
    · rintro lane mode clock dLo dHi idle stall dry group rfl bad
      exact exec_requestOf_badField (owner := ownLaneConfig) rfl admits (parseLaneConfig_badField bad)
    · rintro lane b rfl bad
      exact ⟨exec_requestOf_badField (owner := ownLaneStop) rfl admits (parseLaneStop_badField bad),
        exec_requestOf_badField (owner := ownLaneStatus) rfl admits (parseLaneStatus_badField bad)⟩
    · rintro b rfl bad
      exact exec_requestOf_badField (owner := ownDeviceStatus) rfl admits (parseClear_badField bad)
    · rintro kind lo hi sLo sHi kLo kHi words rfl bad
      have unread : readRowRef kind lo hi = none ∨ rangeInRow (pairNat sLo sHi) (pairNat kLo kHi) = false :=
        bad.imp readRowRef_eq_none rangeInRow_eq_false
      refine ⟨fun length => ?_, fun noWords => ?_⟩
      · exact exec_requestOf_badField (owner := ownHostOp) rfl admits (parseRowWrite_badField unread length)
      · subst noWords
        exact exec_requestOf_badField (owner := ownHostOp) rfl admits (parseRowRead_badField unread)
    · rintro kind lo hi fLo fHi tLo tHi word rfl bad
      exact exec_requestOf_badField (owner := ownHostOp) rfl admits
        (parseRowFill_badField (bad.imp readRowRef_eq_none id))

/-! ## The bytes of a CUE POST (Tables 10-3, 10-4, 10-6) -/

/-- The two bytes of a field carry its number. -/
theorem pairNat_fieldBytes {n : Nat} (h : n < 65536) : pairNat (loByte n) (hiByte n) = n := by
  simp only [pairNat, loByte, hiByte, BitVec.toNat_ofNat]
  omega

theorem readRowRef_bytes (ref : RowRef) (rest : List Byte) :
    ∃ kind lo hi, ref.bytes ++ rest = kind :: lo :: hi :: rest ∧ readRowRef kind lo hi = some ref := by
  cases ref with
  | row r =>
    refine ⟨_, _, _, rfl, ?_⟩
    have number := pairNat_fieldBytes (n := r.val) (by omega)
    simp only [readRowRef, number, readRow_val rfl]
    rfl
  | aliased n =>
    refine ⟨_, _, _, rfl, ?_⟩
    have number := pairNat_fieldBytes (n := n.val) (by omega)
    simp only [readRowRef, number, readAlias_val rfl]
    rfl

theorem readHalf_byte (h : Half) : readHalf h.byte = some h := by
  cases h <;> rfl

theorem readReps_bytes {reps : Reps} (rest : List Byte) (h : ∀ n, reps = .count n → 1 ≤ n ∧ n ≤ 254) :
    ∃ lo hi, reps.bytes ++ rest = lo :: hi :: rest ∧ readReps (pairNat lo hi) = some reps := by
  cases reps with
  | count n =>
    have inRange := h n rfl
    exact ⟨_, _, rfl, by rw [pairNat_fieldBytes (by omega), readReps, if_pos inRange]⟩
  | continuous => exact ⟨_, _, rfl, rfl⟩

/-- The flags byte carries the four flags and LAST PRESENT. -/
theorem Cue.flagsByte_bits (c : Cue) :
    c.flagsByte.toNat < 32 ∧ c.flagsByte.getLsbD 4 = true ∧ c.flagsByte.getLsbD 0 = c.notifyStart ∧
      c.flagsByte.getLsbD 1 = c.notifyEnd ∧ c.flagsByte.getLsbD 2 = c.haltAfter ∧ c.flagsByte.getLsbD 3 = c.mark := by
  unfold Cue.flagsByte
  cases c.notifyStart <;> cases c.notifyEnd <;> cases c.haltAfter <;> cases c.mark <;> decide

/-- A cue's ten bytes read as the cue. -/
theorem readCue_bytes {c : Cue} (h : c.inRange = true) :
    c.bytes.length = 10 ∧ readCue c.bytes = some c := by
  obtain ⟨ordered, reps⟩ : c.tap.toNat ≤ c.last.toNat ∧ ∀ n, c.reps = .count n → 1 ≤ n ∧ n ≤ 254 := by
    simp only [Cue.inRange, Bool.and_eq_true, decide_eq_true_eq] at h
    refine ⟨h.1, fun n hn => ?_⟩
    have held := h.2
    rw [hn] at held
    exact of_decide_eq_true held
  obtain ⟨repLo, repHi, repBytes, repRead⟩ := readReps_bytes [c.flagsByte] reps
  obtain ⟨kind, lo, hi, refBytes, refRead⟩ :=
    readRowRef_bytes c.ref (c.half.byte :: c.tap :: c.last :: (c.reps.bytes ++ [c.flagsByte]))
  have bytes : c.bytes = [c.id, kind, lo, hi, c.half.byte, c.tap, c.last, repLo, repHi, c.flagsByte] := by
    rw [repBytes] at refBytes
    simp only [Cue.bytes, List.append_assoc, List.cons_append, List.nil_append, repBytes, refBytes]
  obtain ⟨small, present, start, ended, haltAfter, mark⟩ := c.flagsByte_bits
  rw [bytes]
  refine ⟨rfl, ?_⟩
  simp only [readCue, refRead, readHalf_byte, repRead, present, if_true, small, ordered, and_self, start, ended, haltAfter,
    mark]

/-- The records of a batch read as its cues, in order. -/
theorem readCues_bytes {cues : List Cue} (h : ∀ c ∈ cues, c.inRange = true) :
    (cues.flatMap Cue.bytes).length = 10 * cues.length ∧ readCues cues.length (cues.flatMap Cue.bytes) = some cues := by
  induction cues with
  | nil => exact ⟨rfl, rfl⟩
  | cons c cs ih =>
    obtain ⟨ten, read⟩ := readCue_bytes (h c List.mem_cons_self)
    obtain ⟨length, rest⟩ := ih fun d hd => h d (List.mem_cons_of_mem c hd)
    rw [List.flatMap_cons, List.length_cons]
    refine ⟨by rw [List.length_append]; omega, ?_⟩
    rw [readCues, List.take_append_of_le_length (by omega), List.take_of_length_le (by omega),
      List.drop_append_of_le_length (by omega), List.drop_of_length_le (by omega), List.nil_append, read, rest]

theorem readLane_laneByte (l : LaneId) : readLane (laneByte l) = some l := by
  cases l <;> rfl

/-- Settles O5: the count byte gives the records' length, and each record reads as its cue. -/
theorem cuePostBytesReadBack : Obligations.CuePostBytesReadBack := by
  intro l cues some8 atMost8 inRange
  obtain ⟨length, read⟩ := readCues_bytes inRange
  have count : (loByte cues.length).toNat = cues.length := by
    simp only [loByte, BitVec.toNat_ofNat]
    omega
  simp only [postBytes, parseCuePost, count, length, ne_eq, not_true_eq_false, if_false, readLane_laneByte, read]
  exact if_neg (by omega)

end Sys2Proof.Machine
end

section
/-! SUPPORT and the obligations of the CUE REQUESTS: an owner's view of the state, staging and settling case by case, CUE
POST, CUE FLUSH and CUE LIST, and the reports (R9 to R17, R45, R127). -/

namespace Sys2Proof.Machine

open Sys2Proof

/-! ## What an owner finds: the request's entry changes nothing else -/

@[simp] theorem State.lane_keptOpen (s : State) (tag code : Byte) (payload : List Byte) (l : LaneId) :
    (s.keptOpen tag code payload).lane l = s.lane l := rfl

@[simp] theorem State.arrayState_keptOpen (s : State) (tag code : Byte) (payload : List Byte) :
    (s.keptOpen tag code payload).arrayState = s.arrayState := rfl

@[simp] theorem State.event_keptOpen (s : State) (tag code : Byte) (payload : List Byte) :
    (s.keptOpen tag code payload).event = s.event + 1 := rfl

@[simp] theorem State.now_keptOpen (s : State) (tag code : Byte) (payload : List Byte) :
    (s.keptOpen tag code payload).now = s.now := rfl

@[simp] theorem State.lane_replied (s : State) (tag code : Byte) (status : Status) (fields : ReplyFields) (l : LaneId) :
    (s.replied tag code status fields).lane l = s.lane l := rfl

@[simp] theorem State.group_replied (s : State) (tag code : Byte) (status : Status) (fields : ReplyFields) (g : GroupName) :
    (s.replied tag code status fields).group g = s.group g := rfl

@[simp] theorem State.event_replied (s : State) (tag code : Byte) (status : Status) (fields : ReplyFields) :
    (s.replied tag code status fields).event = s.event + 1 := rfl

/-- An owner that changes one lane and answers. -/
theorem State.answer_keptOpen_setLane (s : State) (tag code : Byte) (payload : List Byte) (status : Status)
    (fields : ReplyFields) (l : LaneId) (x : Lane) (h : s.Admits tag payload) :
    ((s.keptOpen tag code payload).setLane l x).answer tag status fields = (s.replied tag code status fields).setLane l x := by
  rw [State.answer_setLane, State.answer_keptOpen s tag code payload status fields h]

theorem parseLane_fields {b : Byte} {l : LaneId} (h : readLane b = some l) : parseLane [b] = .fields l := by
  simp only [parseLane, h, Parsed.ofOption]

/-! ## Lane states by name -/

theorem LaneState.stages_iff (st : LaneState) :
    st.stages = true ↔ st = .priming ∨ st = .ready ∨ st = .running ∨ ∃ cause, st = .stalled cause := by
  cases st <;> simp [LaneState.stages]

theorem LaneState.canHalt_iff (st : LaneState) :
    st.canHalt = true ↔ st = .priming ∨ st = .ready ∨ st = .running ∨ ∃ cause, st = .stalled cause := by
  cases st <;> simp [LaneState.canHalt]

theorem LaneState.isStopped_iff (st : LaneState) : st.isStopped = true ↔ st = .idle ∨ ∃ reason, st = .halted reason := by
  cases st <;> simp [LaneState.isStopped]

theorem LaneState.takesPost_iff (st : LaneState) :
    st.takesPost = true ↔
      st = .idle ∨ st = .priming ∨ st = .ready ∨ st = .running ∨ (∃ cause, st = .stalled cause) ∨ ∃ r, st = .halted r := by
  cases st <;> simp [LaneState.takesPost]

/-! ## Staging, case by case (R9, R10) -/

@[simp] theorem Slot.isEmpty_iff (x : Slot) : x.isEmpty = true ↔ x = .empty := by
  cases x <;> simp [Slot.isEmpty]

theorem Lane.emptySlot_a {ln : Lane} (h : ln.slotA = .empty) : ln.emptySlot = some .a := by
  simp [Lane.emptySlot, h, Slot.isEmpty]

theorem Lane.emptySlot_b {ln : Lane} (a : ln.slotA ≠ .empty) (b : ln.slotB = .empty) : ln.emptySlot = some .b := by
  simp [Lane.emptySlot, a, b]

theorem Lane.emptySlot_none {ln : Lane} (a : ln.slotA ≠ .empty) (b : ln.slotB ≠ .empty) : ln.emptySlot = none := by
  simp [Lane.emptySlot, a, b]

theorem Lane.emptySlot_isSome (ln : Lane) : ln.emptySlot.isSome = true ↔ ln.slotA = .empty ∨ ln.slotB = .empty := by
  by_cases a : ln.slotA = .empty
  · simp [Lane.emptySlot_a a, a]
  · by_cases b : ln.slotB = .empty
    · simp [Lane.emptySlot_b a b, b]
    · simp [Lane.emptySlot_none a b, a, b]

/-- The head cue moves to the EMPTY slot or, of two, to slot A. -/
theorem Lane.stageHead_moves {ln : Lane} {c : HeldCue} {q : List HeldCue} {n : SlotName} (age : Nat)
    (stages : ln.state.stages = true) (queue : ln.queue = c :: q) (slot : ln.emptySlot = some n) :
    ln.stageHead age = { ln.setSlot n (ln.stagedSlot c age) with queue := q } := by
  simp only [Lane.stageHead, stages, if_true, queue, slot]

theorem Lane.stageHead_stays {ln : Lane} (age : Nat)
    (h : ln.state.stages = false ∨ ln.queue = [] ∨ ln.emptySlot = none) : ln.stageHead age = ln := by
  unfold Lane.stageHead
  split
  · next stages =>
    split
    · next hq hn =>
      rcases h with h | h | h
      · exact absurd stages (by simp [h])
      · cases h.symm.trans hq
      · cases h.symm.trans hn
    · rfl
  · rfl

theorem Lane.stage_stays {ln : Lane} (age : Nat)
    (h : ln.state.stages = false ∨ ln.queue = [] ∨ (ln.slotA ≠ .empty ∧ ln.slotB ≠ .empty)) : ln.stage age = ln := by
  have one : ln.stageHead age = ln := Lane.stageHead_stays age (h.imp id (Or.imp id fun both =>
    Lane.emptySlot_none both.1 both.2))
  rw [Lane.stage, one, one]

/-- A staged cue's slot is not EMPTY. -/
theorem Lane.stagedSlot_ne_empty (ln : Lane) (c : HeldCue) (age : Nat) : ln.stagedSlot c age ≠ .empty := by
  unfold Lane.stagedSlot
  cases ln.config.mode <;> simp

theorem Lane.stage_a {ln : Lane} {c : HeldCue} {q : List HeldCue} (age : Nat) (stages : ln.state.stages = true)
    (queue : ln.queue = c :: q) (a : ln.slotA = .empty) (b : ln.slotB ≠ .empty) :
    ln.stage age = { ln with slotA := ln.stagedSlot c age, queue := q } := by
  rw [Lane.stage, Lane.stageHead_moves age stages queue (Lane.emptySlot_a a)]
  exact Lane.stageHead_stays age (.inr (.inr (Lane.emptySlot_none (ln.stagedSlot_ne_empty c age) b)))

theorem Lane.stage_b {ln : Lane} {c : HeldCue} {q : List HeldCue} (age : Nat) (stages : ln.state.stages = true)
    (queue : ln.queue = c :: q) (a : ln.slotA ≠ .empty) (b : ln.slotB = .empty) :
    ln.stage age = { ln with slotB := ln.stagedSlot c age, queue := q } := by
  rw [Lane.stage, Lane.stageHead_moves age stages queue (Lane.emptySlot_b a b)]
  exact Lane.stageHead_stays age (.inr (.inr (Lane.emptySlot_none a (ln.stagedSlot_ne_empty c age))))

theorem Lane.stage_one {ln : Lane} {c : HeldCue} (age : Nat) (stages : ln.state.stages = true) (queue : ln.queue = [c])
    (a : ln.slotA = .empty) : ln.stage age = { ln with slotA := ln.stagedSlot c age, queue := [] } := by
  rw [Lane.stage, Lane.stageHead_moves age stages queue (Lane.emptySlot_a a)]
  exact Lane.stageHead_stays age (.inr (.inl rfl))

theorem Lane.stage_two {ln : Lane} {c d : HeldCue} {q : List HeldCue} (age : Nat) (stages : ln.state.stages = true)
    (queue : ln.queue = c :: d :: q) (a : ln.slotA = .empty) (b : ln.slotB = .empty) :
    ln.stage age = { ln with slotA := ln.stagedSlot c age, slotB := ln.stagedSlot d age, queue := q } := by
  rw [Lane.stage, Lane.stageHead_moves age stages queue (Lane.emptySlot_a a)]
  exact Lane.stageHead_moves (ln := { ln with slotA := ln.stagedSlot c age, queue := d :: q }) age stages rfl
    (Lane.emptySlot_b (ln.stagedSlot_ne_empty c age) b)

/-- The slot with the older of the cues that `p` asks for is one that `p` asks for. -/
theorem Lane.oldestWhere_eq_none (ln : Lane) (p : Slot → Bool) :
    ln.oldestWhere p = none ↔ ∀ n, p (ln.slot n) = true → (ln.slot n).cue? = none := by
  have both : (∀ n, p (ln.slot n) = true → (ln.slot n).cue? = none) ↔
      (p ln.slotA = true → ln.slotA.cue? = none) ∧ (p ln.slotB = true → ln.slotB.cue? = none) :=
    ⟨fun h => ⟨h .a, h .b⟩, fun h n => by cases n; exact h.1; exact h.2⟩
  rw [both]
  unfold Lane.oldestWhere
  dsimp only
  split
  · next x y hx hy =>
    split <;> simp_all
  · next x hx hy => simp_all
  · next y hx hy => simp_all
  · next hx hy => simp_all

/-! ## Settling, case by case -/

section

variable {s : State} {l : LaneId} {id : Byte} {ln : Lane}

/-- A PRIMING lane may become READY (R33, R90). -/
theorem State.settleLane_priming (staged : (s.lane l).stage s.event = ln) (state : ln.state = .priming) :
    s.settleLane l id = s.setLane l (if ln.firstReady = true then { ln with state := .ready } else ln) := by
  subst staged
  simp only [State.settleLane, State.mapLane_eq, State.lane_setLane_same, state]
  split
  · rw [State.setLane_setLane]
  · rfl

/-- A play lane stalled UNDERRUN that holds a cue goes on waiting for it. -/
theorem State.settleLane_underrun (staged : (s.lane l).stage s.event = ln) (state : ln.state = .stalled .underrun)
    (mode : ln.config.mode = .play) (holds : ln.heldCount ≠ 0) : s.settleLane l id = s.setLane l ln := by
  subst staged
  simp only [State.settleLane, State.mapLane_eq, State.lane_setLane_same, state, mode, holds, if_false]

/-- A play lane stalled UNDERRUN that holds no cue meets its dry policy (R68). -/
theorem State.settleLane_underrun_dry (staged : (s.lane l).stage s.event = ln) (state : ln.state = .stalled .underrun)
    (mode : ln.config.mode = .play) (none : ln.heldCount = 0) :
    s.settleLane l id = ((s.setLane l ln).excuseUnderrun l).actDry l id := by
  subst staged
  simp only [State.settleLane, State.mapLane_eq, State.lane_setLane_same, state, mode, none, if_true]

/-- A stalled capture lane resumes with an ASSIGNED slot (R94, R97). -/
theorem State.settleLane_resumes {cause : StallCause} {n : SlotName} (staged : (s.lane l).stage s.event = ln)
    (state : ln.state = .stalled cause) (mode : ln.config.mode = .capture)
    (assigned : ln.oldestWhere Slot.isAssigned = some n) : s.settleLane l id = s.setLane l (ln.run n) := by
  subst staged
  cases cause <;>
    simp only [State.settleLane, State.mapLane_eq, State.lane_setLane_same, state, mode, assigned, State.setLane_setLane]

/-- A stalled capture lane without an ASSIGNED slot stays, but from OVERRUN with a slot left EMPTY (R97). -/
theorem State.settleLane_waits {cause : StallCause} (staged : (s.lane l).stage s.event = ln)
    (state : ln.state = .stalled cause) (mode : ln.config.mode = .capture)
    (assigned : ln.oldestWhere Slot.isAssigned = none)
    (stays : cause ≠ .overrun ∨ (ln.slotA ≠ .empty ∧ ln.slotB ≠ .empty)) : s.settleLane l id = s.setLane l ln := by
  subst staged
  have kept : ¬ (cause = .overrun ∧ ((s.lane l).stage s.event).emptySlot.isSome = true) := by
    rintro ⟨isOverrun, slot⟩
    rcases stays with other | ⟨a, b⟩
    · exact other isOverrun
    · exact (Lane.emptySlot_isSome _).mp slot |>.elim a b
  cases cause <;> simp only [State.settleLane, State.mapLane_eq, State.lane_setLane_same, state, mode, assigned]
  case overrun => exact if_neg (by simpa using kept)
  all_goals exact if_neg (by simp)

/-- From OVERRUN with a slot left EMPTY a capture lane meets its dry policy (R97). -/
theorem State.settleLane_overrun_dry (staged : (s.lane l).stage s.event = ln) (state : ln.state = .stalled .overrun)
    (mode : ln.config.mode = .capture) (assigned : ln.oldestWhere Slot.isAssigned = none)
    (empty : ln.slotA = .empty ∨ ln.slotB = .empty) : s.settleLane l id = (s.setLane l ln).actDry l id := by
  subst staged
  have slot : ((s.lane l).stage s.event).emptySlot.isSome = true := (Lane.emptySlot_isSome _).mpr empty
  simp only [State.settleLane, State.mapLane_eq, State.lane_setLane_same, state, mode, assigned, slot, and_self, if_true]

/-- ENDING may be left (R100). -/
theorem State.settleLane_ending {reason : HaltReason} {ids : List Byte} (state : (s.lane l).state = .ending reason ids) :
    s.settleLane l id = s.leaveEnding l := by
  have same : (s.lane l).stage s.event = s.lane l := Lane.stage_stopped _ _ (by rw [state]; rfl)
  simp only [State.settleLane, State.mapLane_eq, same, State.setLane_lane, state]

/-- A reset may end (R44). -/
theorem State.settleLane_resetting (state : (s.lane l).state = .resetting) : s.settleLane l id = s.endLaneReset l := by
  have same : (s.lane l).stage s.event = s.lane l := Lane.stage_stopped _ _ (by rw [state]; rfl)
  simp only [State.settleLane, State.mapLane_eq, same, State.setLane_lane, state]

/-- The states in which a lane stages and does nothing more. -/
theorem State.settleLane_stages (staged : (s.lane l).stage s.event = ln)
    (state : ln.state = .idle ∨ ln.state = .ready ∨ ln.state = .running ∨ (∃ reason, ln.state = .halted reason) ∨
      ∃ cause, ln.state = .stalled cause ∧ cause ≠ .underrun ∧ ln.config.mode = .play) :
    s.settleLane l id = s.setLane l ln := by
  subst staged
  rcases state with state | state | state | ⟨_, state⟩ | ⟨cause, state, other, mode⟩
  case inr.inr.inr.inr =>
    cases cause with
    | underrun => exact absurd rfl other
    | overrun => simp only [State.settleLane, State.mapLane_eq, State.lane_setLane_same, state, mode]
    | dry => simp only [State.settleLane, State.mapLane_eq, State.lane_setLane_same, state, mode]
  all_goals simp only [State.settleLane, State.mapLane_eq, State.lane_setLane_same, state]

end

/-! ## CUE POST (R11 to R13) -/

theorem exec_cuePost (tag : Byte) (payload : List Byte) (s : State) :
    exec (.cuePost tag payload) s =
      s.happen fun s => s.receiveRequest tag 0x10 payload (dispatchTo parseCuePost ownCuePost) := rfl

theorem all_suits_iff (cues : List Cue) (m : Mode) :
    cues.all (fun c => c.suits m) = true ↔ (m = .capture → ∀ c ∈ cues, c.reps = .count 1) := by
  cases m <;> simp [Cue.suits]

/-- Check 5 of Table 1-9: two of the ids are one, in the batch or with a held cue. -/
theorem repeated_iff (cues : List Cue) (ln : Lane) :
    (!decide (cues.map fun c => c.id).Nodup || (cues.map fun c => c.id).any fun i => ln.heldIds.contains i) = true ↔
      ¬ ((cues.map fun c => c.id).Nodup ∧ ∀ c ∈ cues, c.id ∉ ln.heldIds) := by
  simp only [Bool.or_eq_true, Bool.not_eq_true', decide_eq_false_iff_not, List.any_eq_true, List.mem_map,
    List.contains_iff_mem, not_and_or, not_forall, not_not, exists_prop]
  refine or_congr Iff.rfl ⟨?_, ?_⟩
  · rintro ⟨_, ⟨c, hc, rfl⟩, held⟩
    exact ⟨c, hc, held⟩
  · rintro ⟨c, hc, held⟩
    exact ⟨c.id, ⟨c, hc, rfl⟩, held⟩

/-- Checks 3 to 6 of Table 1-9, in order. -/
theorem Lane.postRefusal_eq (ln : Lane) (cues : List Cue) :
    ln.postRefusal cues =
      if ln.state.takesPost = false then some .wrongState
      else if ¬ (ln.config.mode = .capture → ∀ c ∈ cues, c.reps = .count 1) then some .badField
      else if ¬ ((cues.map fun c => c.id).Nodup ∧ ∀ c ∈ cues, c.id ∉ ln.heldIds) then some .duplicateCue
      else if 16 < ln.heldCount + cues.length then some .queueFull
      else none := by
  simp only [← all_suits_iff, ← repeated_iff, Lane.postRefusal, Bool.not_eq_true', Bool.not_eq_true]

section

variable {tag : Byte} {payload : List Byte} {l : LaneId} {cues : List Cue} {s : State}

/-- A post that fails a check of Table 1-9 is answered with its status, and nothing else changes. -/
theorem exec_cuePost_refused {status : Status} (parsed : parseCuePost payload = .fields (l, cues))
    (admits : s.Admits tag payload) (refused : (s.lane l).postRefusal cues = some status) :
    exec (.cuePost tag payload) s = .next (s.replied tag 0x10 status .none).transmit := by
  rw [exec_cuePost, State.receive_fields s tag 0x10 _ _ _ _ admits parsed]
  simp only [ownCuePost, State.lane_keptOpen, refused, State.answer_keptOpen s tag 0x10 _ _ _ admits]

end

/-- Settles O6: each check answers where those before it pass. -/
theorem postRefusedInOrder : Obligations.PostRefusedInOrder := by
  intro tag payload l cues s parsed admits
  refine ⟨LaneState.takesPost_iff, fun state => exec_cuePost_refused parsed admits ?_,
    fun takes unsuited => exec_cuePost_refused parsed admits ?_,
    fun takes suits stale => exec_cuePost_refused parsed admits ?_,
    fun takes suits fresh full => exec_cuePost_refused parsed admits ?_⟩ <;> rw [Lane.postRefusal_eq]
  · have refuses : (s.lane l).state.takesPost = false := by
      rcases state with h | ⟨r, ids, h⟩ <;> rw [h] <;> rfl
    rw [if_pos refuses]
  · rw [if_neg (by simp [takes]), if_pos unsuited]
  · rw [if_neg (by simp [takes]), if_neg (not_not.mpr suits), if_pos stale]
  · rw [if_neg (by simp [takes]), if_neg (not_not.mpr suits), if_neg (not_not.mpr fresh), if_pos full]

/-- A CUE POST carries a cue. -/
theorem parseCuePost_nonempty {payload : List Byte} {l : LaneId} {cues : List Cue}
    (h : parseCuePost payload = .fields (l, cues)) : cues ≠ [] := by
  unfold parseCuePost at h
  split at h
  · next lane count rest =>
    split at h
    · cases h
    · split at h
      · cases h
      · next inRange =>
        split at h
        · next x read =>
          cases h
          rintro rfl
          obtain ⟨n, hn⟩ : ∃ n, count.toNat = n + 1 := ⟨count.toNat - 1, by omega⟩
          rw [hn, readCues] at read
          split at read <;> cases read
        · cases h
  · cases h

/-- After a move of its head cue a capture lane has an ASSIGNED slot. -/
theorem Lane.assigned_of_staged {ln : Lane} {c : HeldCue} {q : List HeldCue} (age : Nat) (stages : ln.state.stages = true)
    (mode : ln.config.mode = .capture) (queue : ln.queue = c :: q) (slot : ln.slotA = .empty ∨ ln.slotB = .empty) :
    (ln.stage age).oldestWhere Slot.isAssigned ≠ none := by
  have inCapture : ∀ x, ln.stagedSlot x age = .assigned x := fun x => by simp [Lane.stagedSlot, mode]
  rw [Ne, Lane.oldestWhere_eq_none]
  intro none
  have noA := none .a
  have noB := none .b
  by_cases a : ln.slotA = .empty
  · by_cases b : ln.slotB = .empty
    · cases q with
      | nil => simp [Lane.stage_one age stages queue a, inCapture, Lane.slot, Slot.isAssigned, Slot.cue?] at noA
      | cons d q => simp [Lane.stage_two age stages queue a b, inCapture, Lane.slot, Slot.isAssigned, Slot.cue?] at noA
    · simp [Lane.stage_a age stages queue a b, inCapture, Lane.slot, Slot.isAssigned, Slot.cue?] at noA
  · have b := slot.resolve_left a
    simp [Lane.stage_b age stages queue a b, inCapture, Lane.slot, Slot.isAssigned, Slot.cue?] at noB

/-- What a lane that has taken a post does, once its cues have been staged. -/
def Lane.afterPost (ln : Lane) : Lane :=
  if ln.state = .priming ∧ ln.firstReady = true then { ln with state := .ready }
  else if ln.config.mode = .capture ∧ ln.state.stallCause? ≠ none then
    match ln.oldestWhere Slot.isAssigned with
    | some n => ln.run n
    | none => ln
  else ln

/-- A lane that waits for cues and has just been given some settles within itself: it never meets its dry policy. -/
theorem State.settleLane_posted {s : State} {l : LaneId} (id : Byte) (takes : (s.lane l).state.takesPost = true)
    (queue : (s.lane l).queue ≠ []) :
    s.settleLane l id = s.setLane l ((s.lane l).stage s.event).afterPost := by
  generalize staged : (s.lane l).stage s.event = ln
  have sameState : ln.state = (s.lane l).state := by rw [← staged, Lane.stage_state]
  have sameConfig : ln.config = (s.lane l).config := by rw [← staged, Lane.stage_config]
  have holds : ln.heldCount ≠ 0 := by
    obtain ⟨c, q, hq⟩ := List.exists_cons_of_ne_nil queue
    rw [← staged, Lane.stage_heldCount]
    simp [Lane.heldCount, Lane.held, hq]
  rcases (LaneState.takesPost_iff _).mp takes with state | state | state | state | ⟨cause, state⟩ | ⟨reason, state⟩ <;>
    rw [state] at sameState
  case inr.inr.inr.inr.inl =>
    cases mode : ln.config.mode with
    | play =>
      have after : ln.afterPost = ln := by simp [Lane.afterPost, sameState, mode]
      rw [after]
      cases cause with
      | underrun => exact State.settleLane_underrun staged sameState mode holds
      | overrun => exact State.settleLane_stages staged (by simp [sameState, mode])
      | dry => exact State.settleLane_stages staged (by simp [sameState, mode])
    | capture =>
      have stages : (s.lane l).state.stages = true := by rw [state]; rfl
      have after : ln.afterPost = match ln.oldestWhere Slot.isAssigned with
          | some n => ln.run n
          | none => ln := by simp [Lane.afterPost, sameState, mode, LaneState.stallCause?]
      rw [after]
      cases assigned : ln.oldestWhere Slot.isAssigned with
      | some n => exact State.settleLane_resumes staged sameState mode assigned
      | none =>
        refine State.settleLane_waits staged sameState mode assigned (.inr ?_)
        obtain ⟨c, q, hq⟩ := List.exists_cons_of_ne_nil queue
        by_contra open'
        have slot : (s.lane l).slotA = .empty ∨ (s.lane l).slotB = .empty := by
          by_contra full
          rw [not_or] at full
          rw [Lane.stage_stays s.event (.inr (.inr full))] at staged
          exact open' (staged ▸ full)
        exact Lane.assigned_of_staged s.event stages (sameConfig ▸ mode) hq slot (by rw [staged, assigned])
  case inr.inl =>
    rw [State.settleLane_priming staged sameState]
    simp [Lane.afterPost, sameState, LaneState.stallCause?]
  all_goals
    rw [State.settleLane_stages staged (by simp [sameState])]
    simp [Lane.afterPost, sameState, LaneState.stallCause?]

/-- Settles O7: a lane with a cue just posted settles within itself. -/
theorem postJoinsAndStages : Obligations.PostJoinsAndStages := by
  intro tag payload l cues s parsed admits ln takes suits distinct fresh room
  have takes : (s.lane l).state.takesPost = true := (LaneState.takesPost_iff _).mpr takes
  have accepted : (s.lane l).postRefusal cues = none := by
    rw [Lane.postRefusal_eq, if_neg (by simp [takes]), if_neg (not_not.mpr suits), if_neg (not_not.mpr ⟨distinct, fresh⟩),
      if_neg (Nat.not_lt.mpr room)]
  obtain ⟨c, cs, rfl⟩ := List.exists_cons_of_ne_nil (parseCuePost_nonempty parsed)
  rw [exec_cuePost, State.receive_fields s tag 0x10 _ _ _ _ admits parsed]
  simp only [ownCuePost, State.lane_keptOpen, accepted, State.mapLane_eq, Lane.enqueue_eq]
  rw [State.settleLane_posted _ (by rw [State.lane_setLane_same]; exact takes) (by rw [State.lane_setLane_same]; simp),
    State.setLane_setLane, State.answer_keptOpen_setLane s tag 0x10 _ _ _ _ _ admits, State.lane_setLane_same]
  rfl

/-! ## CUE FLUSH (R15) -/

theorem exec_cueFlush (tag : Byte) (payload : List Byte) (s : State) :
    exec (.cueFlush tag payload) s =
      s.happen fun s => s.receiveRequest tag 0x11 payload (dispatchTo parseLane ownCueFlush) := rfl

/-- Settles O8: the notices of the flush are offered one by one, and the answer stands apart from them. -/
theorem flushRetiresWaitingCues : Obligations.FlushRetiresWaitingCues := by
  intro tag lane l s read admits active
  rw [exec_cueFlush, State.receive_fields s tag 0x11 _ _ _ _ admits (parseLane_fields read)]
  simp only [ownCueFlush, State.lane_keptOpen, active, if_false, State.mapLane_eq, State.retireFlushed_eq,
    State.answer_offerAll, State.answer_keptOpen_setLane s tag 0x11 _ _ _ _ _ admits]

/-! ## The reports (R17, R45, R127) -/

theorem exec_cueList (tag : Byte) (payload : List Byte) (s : State) :
    exec (.cueList tag payload) s =
      s.happen fun s => s.receiveRequest tag 0x12 payload (dispatchTo parseLane ownCueList) := rfl

theorem exec_laneStatus (tag : Byte) (payload : List Byte) (s : State) :
    exec (.laneStatus tag payload) s =
      s.happen fun s => s.receiveRequest tag 0x24 payload (dispatchTo parseLaneStatus ownLaneStatus) := rfl

theorem exec_groupStatus (tag : Byte) (payload : List Byte) (s : State) :
    exec (.groupStatus tag payload) s =
      s.happen fun s => s.receiveRequest tag 0x53 payload (dispatchTo parseGroup ownGroupStatus) := rfl

theorem parseLaneStatus_fields {lane b : Byte} {l : LaneId} {clear : Bool} (hl : readLane lane = some l)
    (hb : readBit b = some clear) : parseLaneStatus [lane, b] = .fields (l, clear) := by
  simp only [parseLaneStatus, hl, hb]

theorem parseGroup_fields {b : Byte} {g : GroupName} (h : readGroup b = some g) : parseGroup [b] = .fields g := by
  simp only [parseGroup, h, Parsed.ofOption]

/-- A request of one byte that is admitted is admitted with two: admission asks of the payload its length alone. -/
theorem State.Admits.of_fits {s : State} {tag : Byte} {payload other : List Byte} (h : s.Admits tag payload)
    (fits : other.length ≤ Config.maxPayload) : s.Admits tag other :=
  ⟨⟨h.arrives.resetn, fits⟩, h.noDeviceReset, h.place, h.freeTag⟩

/-- Settles O9: the owners answer with the items as they stand; the counters are cleared behind the report. -/
theorem reportsCarryTheLaneAndGroup : Obligations.ReportsCarryTheLaneAndGroup := by
  intro tag b s admits
  refine ⟨fun l read active => ?_, fun l clear clearByte read bit => ?_, fun g read => ?_⟩
  · rw [exec_cueList, State.receive_fields s tag 0x12 _ _ _ _ admits (parseLane_fields read)]
    simp only [ownCueList, State.lane_keptOpen, active, if_false, State.answer_keptOpen s tag 0x12 _ _ _ admits]
    rfl
  · have admits2 : s.Admits tag [b, clearByte] := admits.of_fits (show 2 ≤ 528 by decide)
    rw [exec_laneStatus, State.receive_fields s tag 0x24 _ _ _ _ admits2 (parseLaneStatus_fields read bit)]
    cases clear with
    | true =>
      simp only [ownLaneStatus, if_true, State.lane_keptOpen, State.mapLane_eq,
        State.answer_keptOpen_setLane s tag 0x24 _ _ _ _ _ admits2]
      rfl
    | false =>
      simp only [ownLaneStatus, Bool.false_eq_true, if_false, State.lane_keptOpen,
        State.answer_keptOpen s tag 0x24 _ _ _ admits2]
      rfl
  · rw [exec_groupStatus, State.receive_fields s tag 0x53 _ _ _ _ admits (parseGroup_fields read)]
    simp only [ownGroupStatus, State.answer_keptOpen s tag 0x53 _ _ _ admits]
    rfl

end Sys2Proof.Machine
end

section
/-! SUPPORT and the obligations of the LANE REQUESTS and the ROW REQUESTS: LANE CONFIG, LANE START, LANE STOP, LANE RESET,
and the admission of host operations (R23 to R26, R31 to R33, R42 to R44, R78 to R82, R99, R100, R147). -/

namespace Sys2Proof.Machine

open Sys2Proof

theorem exec_laneConfig (tag : Byte) (payload : List Byte) (s : State) :
    exec (.laneConfig tag payload) s =
      s.happen fun s => s.receiveRequest tag 0x20 payload (dispatchTo parseLaneConfig ownLaneConfig) := rfl

theorem exec_laneStart (tag : Byte) (payload : List Byte) (s : State) :
    exec (.laneStart tag payload) s =
      s.happen fun s => s.receiveRequest tag 0x21 payload (dispatchTo parseLane ownLaneStart) := rfl

theorem exec_laneStop (tag : Byte) (payload : List Byte) (s : State) :
    exec (.laneStop tag payload) s =
      s.happen fun s => s.receiveRequest tag 0x22 payload (dispatchTo parseLaneStop ownLaneStop) := rfl

theorem exec_laneReset (tag : Byte) (payload : List Byte) (s : State) :
    exec (.laneReset tag payload) s =
      s.happen fun s => s.receiveRequest tag 0x23 payload (dispatchTo parseLane ownLaneReset) := rfl

theorem parseLaneStop_fields {lane m : Byte} {l : LaneId} {mode : StopMode} (hl : readLane lane = some l)
    (hm : readStop m = some mode) : parseLaneStop [lane, m] = .fields (l, mode) := by
  simp only [parseLaneStop, hl, hm]

/-! ## LANE CONFIG (R23, R24, R86) -/

theorem Slot.isDiscarding_iff (x : Slot) : x.isDiscarding = true ↔ x = .discarding := by
  cases x <;> simp [Slot.isDiscarding]

/-- Checks 3 and 4 of R23. -/
theorem Lane.takesConfig_iff (ln : Lane) (m : Mode) :
    ln.takesConfig m = true ↔
      ln.state.isStopped = true ∧
        ¬ (m ≠ ln.config.mode ∧ (ln.heldCount ≠ 0 ∨ ln.slotA = .discarding ∨ ln.slotB = .discarding)) := by
  simp only [Lane.takesConfig, Bool.and_eq_true, Bool.or_eq_true, decide_eq_true_eq, Bool.not_eq_true',
    ← Bool.not_eq_true, Slot.isDiscarding_iff, not_and_or, not_or, not_not, and_assoc, ne_eq]

/-- A policy suits its mode or not; an absent one is the mode's default (R23, R86). -/
theorem stallPolicyFor_eq (m : Mode) (p : Option StallPolicy) :
    stallPolicyFor m p =
      if (m = .play ∧ p = some .drop) ∨ (m = .capture ∧ (p = some .hold ∨ p = some .skip)) then none
      else some (p.getD (match m with
        | .play => .hold
        | .capture => .drop)) := by
  cases m <;> rcases p with _ | p <;> (try cases p) <;> rfl

section

variable {tag : Byte} {payload : List Byte} {r : ConfigRequest} {s : State}

theorem exec_laneConfig_refused (parsed : parseLaneConfig payload = .fields r) (admits : s.Admits tag payload)
    (refused : (s.lane r.lane).takesConfig r.mode = false) :
    exec (.laneConfig tag payload) s = .next (s.replied tag 0x20 .wrongState .none).transmit := by
  rw [exec_laneConfig, State.receive_fields s tag 0x20 _ _ _ _ admits parsed]
  simp only [ownLaneConfig, State.lane_keptOpen, refused, Bool.not_false, if_true,
    State.answer_keptOpen s tag 0x20 _ _ _ admits]

theorem exec_laneConfig_unsuited (parsed : parseLaneConfig payload = .fields r) (admits : s.Admits tag payload)
    (taken : (s.lane r.lane).takesConfig r.mode = true) (unsuited : stallPolicyFor r.mode r.stall = none) :
    exec (.laneConfig tag payload) s = .next (s.replied tag 0x20 .badField .none).transmit := by
  rw [exec_laneConfig, State.receive_fields s tag 0x20 _ _ _ _ admits parsed]
  simp only [ownLaneConfig, State.lane_keptOpen, taken, Bool.not_true, Bool.false_eq_true, if_false, unsuited,
    State.answer_keptOpen s tag 0x20 _ _ _ admits]

theorem exec_laneConfig_taken {p : StallPolicy} (parsed : parseLaneConfig payload = .fields r)
    (admits : s.Admits tag payload) (taken : (s.lane r.lane).takesConfig r.mode = true)
    (suited : stallPolicyFor r.mode r.stall = some p) :
    exec (.laneConfig tag payload) s = .next ((s.replied tag 0x20 .ok .none).setLane r.lane
      ((s.lane r.lane).configure
        { mode := r.mode, clock := r.clock, idleWord := r.idleWord, stall := p, dry := r.dry, group := r.group }
        s.now)).transmit := by
  rw [exec_laneConfig, State.receive_fields s tag 0x20 _ _ _ _ admits parsed]
  simp only [ownLaneConfig, State.lane_keptOpen, taken, Bool.not_true, Bool.false_eq_true, if_false, suited,
    State.mapLane_eq, State.answer_keptOpen_setLane s tag 0x20 _ _ _ _ _ admits]
  rfl

end

/-- Settles O11: state and mode are judged before the stall policy. -/
theorem laneConfigTakenOrRefused : Obligations.LaneConfigTakenOrRefused := by
  intro tag payload r s parsed admits
  refine ⟨LaneState.isStopped_iff, fun refused => ?_, fun stopped free unsuited => ?_, fun stopped free suited => ?_⟩
  · refine exec_laneConfig_refused parsed admits (Bool.eq_false_iff.mpr fun taken => ?_)
    obtain ⟨stopped, free⟩ := (Lane.takesConfig_iff _ _).mp taken
    rcases refused with running | changes
    · exact absurd stopped (by rw [running]; decide)
    · exact free changes
  · exact exec_laneConfig_unsuited parsed admits ((Lane.takesConfig_iff _ _).mpr ⟨stopped, free⟩)
      (by rw [stallPolicyFor_eq, if_pos unsuited])
  · rw [exec_laneConfig_taken parsed admits ((Lane.takesConfig_iff _ _).mpr ⟨stopped, free⟩)
      (by rw [stallPolicyFor_eq, if_neg suited])]
    rfl

/-! ## LANE START (R31, R32, R90) -/

theorem State.groupFired_iff (s : State) (l : LaneId) :
    s.groupFired l = true ↔ ∃ g, (s.lane l).config.group = some g ∧ (s.group g).state = .fired := by
  unfold State.groupFired
  cases (s.lane l).config.group <;> simp

@[simp] theorem State.groupFired_keptOpen (s : State) (tag code : Byte) (payload : List Byte) (l : LaneId) :
    (s.keptOpen tag code payload).groupFired l = s.groupFired l := rfl

section

variable {tag lane : Byte} {l : LaneId} {s : State}

theorem exec_laneStart_refused (read : readLane lane = some l) (admits : s.Admits tag [lane]) (ready : s.arrayState = .ready)
    (refused : (s.lane l).state.isStopped = false ∨ s.groupFired l = true) :
    exec (.laneStart tag [lane]) s = .next (s.replied tag 0x21 .wrongState .none).transmit := by
  rw [exec_laneStart, State.receive_fields s tag 0x21 _ _ _ _ admits (parseLane_fields read)]
  have notInit : ¬ s.arrayState = .initialising := by simp [ready]
  simp only [ownLaneStart, State.arrayState_keptOpen, notInit, if_false, State.lane_keptOpen, State.groupFired_keptOpen,
    State.answer_keptOpen s tag 0x21 _ _ _ admits]
  cases stopped : (s.lane l).state.isStopped with
  | false => rfl
  | true =>
    rw [refused.resolve_left (by simp [stopped])]
    rfl

theorem exec_laneStart_taken (read : readLane lane = some l) (admits : s.Admits tag [lane]) (ready : s.arrayState = .ready)
    (stopped : (s.lane l).state.isStopped = true) (unfired : s.groupFired l = false) {ln : Lane}
    (staged : (s.lane l).prime.stage (s.event + 1) = ln) :
    exec (.laneStart tag [lane]) s = .next ((s.replied tag 0x21 .ok .none).setLane l
      (if ln.firstReady = true then { ln with state := .ready } else ln)).endEvent.transmit := by
  rw [exec_laneStart, State.receive_fields s tag 0x21 _ _ _ _ admits (parseLane_fields read)]
  have notInit : ¬ s.arrayState = .initialising := by simp [ready]
  have priming : ln.state = .priming := by rw [← staged, Lane.stage_state]; rfl
  simp only [ownLaneStart, State.arrayState_keptOpen, notInit, if_false, State.lane_keptOpen, State.groupFired_keptOpen,
    stopped, unfired, Bool.not_true, Bool.false_eq_true, State.mapLane_eq]
  rw [State.settleLane_priming (ln := ln) (by rw [State.lane_setLane_same]; exact staged) priming, State.setLane_setLane,
    State.answer_keptOpen_setLane s tag 0x21 _ _ _ _ _ admits]

end

/-- Settles O12: the start is one event of settling in PRIMING, and staging goes by the EMPTY slots and the queue. -/
theorem laneStartPrimesAndStages : Obligations.LaneStartPrimesAndStages := by
  intro tag lane l s read admits
  refine ⟨LaneState.isStopped_iff, fun initialising => ?_, fun ready refused => ?_, fun ready stopped unfired => ?_,
    fun x y rest a b queue => ?_, fun u age => ⟨Lane.stage_stays age, fun x rest stages queue a b => ?_,
      fun x rest stages queue a b => ?_, fun x stages queue a b => ?_, LaneState.stages_iff u.state⟩⟩
  · rw [exec_laneStart, State.receive_fields s tag 0x21 _ _ _ _ admits (parseLane_fields read)]
    simp only [ownLaneStart, State.arrayState_keptOpen, initialising, if_true,
      State.answer_keptOpen s tag 0x21 _ _ _ admits]
  · exact exec_laneStart_refused read admits ready (refused.imp id (State.groupFired_iff s l).mpr)
  · exact exec_laneStart_taken read admits ready stopped
      (Bool.eq_false_iff.mpr fun fired => unfired ((State.groupFired_iff s l).mp fired)) rfl
  · exact Lane.stage_two (s.event + 1) rfl queue a b
  · exact Lane.stage_a age stages queue a b
  · exact Lane.stage_b age stages queue a b
  · exact Lane.stage_one age stages queue a

/-! ## Halts (R78 to R82, R99, R100, R125) -/

/-- A halt is the lane's own, and halt-together behind it. -/
theorem State.halt_eq_together (s : State) (l : LaneId) (reason : HaltReason) :
    s.halt l reason = (s.haltOne l reason).together l (s.cascades l reason) := by
  unfold State.halt
  cases s.cascades l reason <;> rfl

/-- A halt of a lane that has stopped has no effect (R78). -/
theorem State.halt_stopped {s : State} {l : LaneId} (reason : HaltReason) (h : (s.lane l).state.canHalt = false) :
    s.halt l reason = s := by
  have alone : s.cascades l reason = none := by
    unfold State.cascades
    split
    · simp [h]
    · rfl
  rw [State.halt_eq_together, alone]
  simp [State.together, State.haltOne, h]

/-- A play lane's own halt (R79 to R82). -/
theorem State.haltOne_play {s : State} {l : LaneId} (reason : HaltReason) (h : (s.lane l).state.canHalt = true)
    (mode : (s.lane l).config.mode = .play) : s.haltOne l reason = s.haltPlay l reason := by
  simp only [State.haltOne, h, if_true, mode]

/-- A capture lane's own halt (R99). -/
theorem State.haltOne_capture {s : State} {l : LaneId} (reason : HaltReason) (h : (s.lane l).state.canHalt = true)
    (mode : (s.lane l).config.mode = .capture) : s.haltOne l reason = s.haltCapture l reason := by
  simp only [State.haltOne, h, if_true, mode]

theorem Lane.quietPins_play {ln : Lane} (mode : ln.config.mode = .play) :
    ln.quietPins = { ld := some ln.config.idleWord, lqv := some false, lmk := false } := by
  simp only [Lane.quietPins, mode]

theorem Lane.quietPins_capture {ln : Lane} (mode : ln.config.mode = .capture) :
    ln.quietPins = { ld := none, lqv := none, lmk := false } := by
  simp only [Lane.quietPins, mode]

/-- The returned cues stand in post order (R21). -/
theorem Lane.returned_ordered (ln : Lane) : ln.returned.Pairwise fun x y => x.order ≤ y.order := by
  unfold Lane.returned
  split
  · split
    · next ordered => simpa using ordered
    · next reversed => simpa using Nat.le_of_not_le reversed
  all_goals simp

/-! ## LANE STOP (R42) -/

/-- An admitted LANE STOP answers, and the lane stops by Table 2-8. -/
theorem exec_laneStop_fields {tag lane m : Byte} {mode : StopMode} {l : LaneId} {s : State} (hl : readLane lane = some l)
    (hm : readStop m = some mode) (admits : s.Admits tag [lane, m]) (active : (s.lane l).state ≠ .resetting) :
    exec (.laneStop tag [lane, m]) s =
      .next ((s.replied tag 0x22 .ok .none).stopLane l mode).endEvent.transmit := by
  rw [exec_laneStop, State.receive_fields s tag 0x22 _ _ _ _ admits (parseLaneStop_fields hl hm)]
  simp only [ownLaneStop, State.lane_keptOpen, active, if_false, State.answer_keptOpen s tag 0x22 _ _ _ admits]

theorem LaneState.ne_resetting_of_canHalt {st : LaneState} (h : st.canHalt = true) : st ≠ .resetting := by
  rintro rfl
  cases h

/-- Settles O13: NOW is a halt with reason REQUEST, and the tables are the slot functions case by case. -/
theorem stopNowHaltsTheLane : Obligations.StopNowHaltsTheLane := by
  refine ⟨?_, LaneState.canHalt_iff, ?_, ?_⟩
  · intro tag lane l s read admits ln canHalt
    have stopped := exec_laneStop_fields (mode := .now) read rfl admits (LaneState.ne_resetting_of_canHalt canHalt)
    rw [stopped]
    simp only [State.stopLane, State.halt_eq_together]
    refine ⟨fun mode => ?_, fun mode => ?_⟩
    · rw [State.haltOne_play (s := s.replied tag 0x22 .ok .none) .request canHalt mode, State.haltPlay_eq]
      simp only [Lane.stopIn, State.lane_replied, Lane.quietPins_play (ln := s.lane l) mode]
      rfl
    · rw [State.haltOne_capture (s := s.replied tag 0x22 .ok .none) .request canHalt mode, State.haltCapture_eq]
      simp only [Lane.stopIn, State.lane_replied, Lane.quietPins_capture (ln := s.lane l) mode]
      rfl
  · intro age placed c other words res p range
    refine ⟨rfl, fun begun => ?_, fun begun => ?_, rfl, fun begun => ?_, fun begun => ?_⟩ <;>
      simp [Slot.afterHalt, Slot.returned?, Slot.halted?, begun]
  · intro ln
    refine ⟨fun n active => ?_, fun inactive => ?_, ln.returned_perm, ln.returned_ordered⟩
    · simp only [Lane.halted?, active]
    · simp only [Lane.halted?, inactive]

/-- Settles O14: AT END only marks a lane that will come to an end, and is NOW in every other case. -/
theorem stopAtEndAndStopWithoutEffect : Obligations.StopAtEndAndStopWithoutEffect := by
  intro tag lane m mode l s hl hm admits
  refine ⟨?_, ?_, fun stopped => ?_⟩
  · rintro rfl running ending
    rw [exec_laneStop_fields hl hm admits (by simp [running])]
    have later : ((s.replied tag 0x22 .ok .none).lane l).stopsLater = true := by
      rcases ending with h | h <;> simp [Lane.stopsLater, running, h]
    simp only [State.stopLane, later, if_true]
    rfl
  · rintro rfl atOnce
    have now : ((s.replied tag 0x22 .ok .none).lane l).stopsLater = false := by
      rcases atOnce with h | h | ⟨cause, h⟩ | ⟨running, play, awaiting⟩
      · simp [Lane.stopsLater, h]
      · simp [Lane.stopsLater, h]
      · simp [Lane.stopsLater, h]
      · simp [Lane.stopsLater, play, awaiting]
    have active : (s.lane l).state ≠ .resetting := by
      rcases atOnce with h | h | ⟨cause, h⟩ | ⟨h, _⟩ <;> simp [h]
    rw [exec_laneStop_fields hl hm admits active,
      exec_laneStop_fields (mode := .now) hl rfl (admits.of_fits (show 2 ≤ 528 by decide)) active]
    simp only [State.stopLane, now, Bool.false_eq_true, if_false]
  · have cannot : (s.lane l).state.canHalt = false := by
      rcases stopped with h | ⟨r, h⟩ | ⟨r, ids, h⟩ <;> rw [h] <;> rfl
    have notRunning : (s.lane l).state ≠ .running := by
      rcases stopped with h | ⟨r, h⟩ | ⟨r, ids, h⟩ <;> simp [h]
    have active : (s.lane l).state ≠ .resetting := by
      rcases stopped with h | ⟨r, h⟩ | ⟨r, ids, h⟩ <;> simp [h]
    have stays := State.halt_stopped (s := s.replied tag 0x22 .ok .none) (l := l) .request cannot
    rw [exec_laneStop_fields hl hm admits active]
    cases mode with
    | now => simp only [State.stopLane, stays]
    | atEnd =>
      have notLater : ((s.replied tag 0x22 .ok .none).lane l).stopsLater = false := by simp [Lane.stopsLater, notRunning]
      simp only [State.stopLane, notLater, Bool.false_eq_true, if_false, stays]

/-! ## LANE RESET (R43, R44) -/

/-- Settles O15: the reset is taken at once, and ends at once where no operation of the lane is in flight. -/
theorem laneResetEndsOrWaits : Obligations.LaneResetEndsOrWaits := by
  refine ⟨?_, fun _ _ _ _ _ _ _ => rfl⟩
  intro tag lane l s read admits active
  refine ⟨fun ends => ?_, fun waits => ?_⟩ <;>
    rw [exec_laneReset, State.receive_fields s tag 0x23 _ _ _ _ admits (parseLane_fields read)] <;>
    simp only [ownLaneReset, State.lane_keptOpen, active, if_false, State.mapLane_eq, State.lane_setLane_same]
  · rw [if_neg (by exact Bool.eq_false_iff.mp ends), State.setLane_setLane,
      State.answer_keptOpen_setLane s tag 0x23 _ _ _ _ _ admits]
    rfl
  · rw [if_pos (by exact waits)]
    rfl

/-! ## A lane in RESETTING -/

/-- Settles O10, request by request: each owner asks for the lane's state before it acts. -/
theorem resettingLaneRefuses : Obligations.ResettingLaneRefuses := by
  intro tag lane l s read resetting
  refine ⟨fun admits => ⟨?_, ?_, ?_, fun ready => ?_⟩, fun m mode hm admits => ?_, fun payload r parsed hl admits => ?_⟩
  · rw [exec_cueFlush, State.receive_fields s tag 0x11 _ _ _ _ admits (parseLane_fields read)]
    simp only [ownCueFlush, State.lane_keptOpen, resetting, if_true, State.answer_keptOpen s tag 0x11 _ _ _ admits]
  · rw [exec_cueList, State.receive_fields s tag 0x12 _ _ _ _ admits (parseLane_fields read)]
    simp only [ownCueList, State.lane_keptOpen, resetting, if_true, State.answer_keptOpen s tag 0x12 _ _ _ admits]
  · rw [exec_laneReset, State.receive_fields s tag 0x23 _ _ _ _ admits (parseLane_fields read)]
    simp only [ownLaneReset, State.lane_keptOpen, resetting, if_true, State.answer_keptOpen s tag 0x23 _ _ _ admits]
  · exact exec_laneStart_refused read admits ready (.inl (by rw [resetting]; rfl))
  · rw [exec_laneStop, State.receive_fields s tag 0x22 _ _ _ _ admits (parseLaneStop_fields read hm)]
    simp only [ownLaneStop, State.lane_keptOpen, resetting, if_true, State.answer_keptOpen s tag 0x22 _ _ _ admits]
  · subst hl
    exact exec_laneConfig_refused parsed admits (by simp [Lane.takesConfig, resetting, LaneState.isStopped])

/-! ## The row requests (R147) -/

/-- Admission to the host array queue, in the order of its checks. -/
theorem ownHostOp_keptOpen (s : State) (tag code : Byte) (payload : List Byte) (st : EntryState) (ref : RowRef)
    (kind : HostKind) (admits : s.Admits tag payload) :
    ownHostOp ⟨tag, code, payload, st⟩ (ref, kind) (s.keptOpen tag code payload) =
      if s.arrayState = .initialising then s.replied tag code .notReady .none
      else if 4 ≤ s.hostDepth then s.replied tag code .busy .none
      else State.endEvent { s.keptOpen tag code payload with
        hostWaiting := s.hostWaiting ++ [{ tag := tag, ref := ref, kind := kind }]
        hostClaimAge := if s.hostWaiting = [] then some (s.event + 1) else s.hostClaimAge } := by
  simp only [ownHostOp, State.arrayState_keptOpen, State.answer_keptOpen s tag code _ _ _ admits, ← List.isEmpty_iff]
  rfl

/-- Settles O16: the three row requests have one owner. -/
theorem rowRequestsJoinHostQueue : Obligations.RowRequestsJoinHostQueue := by
  intro tag payload ref kind s admits outcome
  have owned : ∀ (c : Instr) (code : Byte) (parse : List Byte → Parsed (RowRef × HostKind)),
      exec c s = s.happen (fun s => s.receiveRequest tag code payload (dispatchTo parse ownHostOp)) →
      parse payload = .fields (ref, kind) → outcome c code := by
    intro c code parse event parsed
    have run := State.receive_fields s tag code _ _ ownHostOp _ admits parsed
    rw [ownHostOp_keptOpen s tag code payload _ ref kind admits] at run
    refine ⟨fun initialising => ?_, fun ready busy => ?_, fun ready room => ?_⟩ <;> rw [event, run]
    · rw [if_pos initialising]
    · rw [if_neg (by simp [ready]), if_pos busy]
    · rw [if_neg (by simp [ready]), if_neg (Nat.not_le.mpr room)]
  exact ⟨owned _ 0x30 _ rfl, owned _ 0x31 _ rfl, owned _ 0x32 _ rfl⟩

end Sys2Proof.Machine
end

section
/-! SUPPORT and the obligations of the GROUPS: GROUP GO, GROUP STOP, halt-together, the TRIG edge, and the states of the
groups at the end of an event (R118 to R126). -/

namespace Sys2Proof.Machine

open Sys2Proof

theorem exec_groupGo (tag : Byte) (payload : List Byte) (s : State) :
    exec (.groupGo tag payload) s =
      s.happen fun s => s.receiveRequest tag 0x51 payload (dispatchTo parseGroup ownGroupGo) := rfl

theorem exec_groupStop (tag : Byte) (payload : List Byte) (s : State) :
    exec (.groupStop tag payload) s =
      s.happen fun s => s.receiveRequest tag 0x52 payload (dispatchTo parseGroup ownGroupStop) := rfl

/-! ## The fire (R123) -/

/-- The READY members of a group, in ascending lane order. -/
theorem State.readyMembers_eq (s : State) (g : GroupName) :
    s.readyMembers g =
      [LaneId.l0, .l1, .l2, .l3].filter fun l => (s.lane l).config.group = some g ∧ (s.lane l).state = .ready := by
  simp only [State.readyMembers, State.members, laneOrder, List.filter_filter, Bool.decide_and]
  exact List.filter_congr fun l _ => Bool.and_comm _ _

theorem State.setGroup_group (s : State) (g h : GroupName) (x : Group) :
    (s.setGroup g x).group h = if h = g then x else s.group h := by
  by_cases same : h = g
  · subst same
    simp
  · simp [same]

/-- A fire starts the group, and no other (R123). -/
theorem State.fire_group (s : State) (g h : GroupName) :
    (s.fire g).group h = if h = g then { s.group g with state := .fired } else s.group h := by
  rw [← State.setGroup_group, State.fire_frame]
  rfl

theorem State.fire_notices {s : State} (g : GroupName) (noReset : s.link.deviceReset = none) :
    (s.fire g).notices = s.notices.join (.groupFired g (s.readyMembers g)) := by
  rw [State.fire_frame, State.offer_eq s _ noReset]

/-- The fire of a lane whose first slot is known (R34, R88). -/
theorem Lane.fireAt_eq {ln : Lane} {n : SlotName} (now : Nat) (first : ln.oldestSlot = some n) :
    ln.fireAt now =
      { ln.activate n with
        state := .running, awaitingFirstBeat := true
        dividerStart := match ln.config.clock with
          | .internal _ => now
          | .external => ln.dividerStart } := by
  simp only [Lane.fireAt, first, Lane.run] <;> rfl

@[simp] theorem Lane.fireAt_config (ln : Lane) (now : Nat) : (ln.fireAt now).config = ln.config := by
  unfold Lane.fireAt
  dsimp only
  split
  · exact ln.activate_config _
  · rfl

/-- Settles O21: the owner fires or refuses, and the fire is known lane by lane and group by group. -/
theorem groupGoFiresAnArmedGroup : Obligations.GroupGoFiresAnArmedGroup := by
  intro tag b g s read admits
  refine ⟨fun refused => ?_, fun trigger armed => ?_, fun ln now n c words res first => ⟨fun slot => ?_, fun slot => ?_⟩⟩
  · rw [exec_groupGo, State.receive_fields s tag 0x51 _ _ _ _ admits (parseGroup_fields read)]
    have closed : ¬ ((s.group g).trigger = .request ∧ (s.group g).state = .armed) := by tauto
    simp only [ownGroupGo, State.group_keptOpen, closed, if_false, State.answer_keptOpen s tag 0x51 _ _ _ admits]
  · have fired := State.fire_frame (s.keptOpen tag 0x51 [b]) g
    refine ⟨{ s.replied tag 0x51 .ok .none with
      lanes := ((s.keptOpen tag 0x51 [b]).fire g).lanes, groups := ((s.keptOpen tag 0x51 [b]).fire g).groups
      notices := ((s.keptOpen tag 0x51 [b]).fire g).notices }, ?_, rfl, fun l => State.fire_lane _ g l,
      fun h => State.fire_group _ g h, ?_⟩
    · rw [exec_groupGo, State.receive_fields s tag 0x51 _ _ _ _ admits (parseGroup_fields read)]
      simp only [ownGroupGo, State.group_keptOpen, trigger, armed, and_self, if_true]
      rw [State.answer_opened s _ tag 0x51 [b] .withOwner .ok .none admits (by rw [fired]; rfl), fired]
      rfl
    · have told := State.fire_notices (s := s.keptOpen tag 0x51 [b]) g admits.noDeviceReset
      rw [State.readyMembers_eq] at told
      exact told
  · rw [Lane.fireAt_eq now first]
    simp only [Lane.activate, slot]
    rfl
  · rw [Lane.fireAt_eq now first]
    simp only [Lane.activate, slot]
    rfl

/-! ## A halt in the words of the tables (R78 to R82, R99, R100) -/

/-- A lane that can halt, halted: by its mode, with the commits it still owes. -/
theorem Lane.halted_eq {ln : Lane} (age : Nat) (why : HaltReason) (canHalt : ln.state.canHalt = true) :
    ln.halted age why =
      { ln with
        state := match ln.config.mode with
          | .play => .halted why
          | .capture =>
            if (ln.slotA.afterHalt age).owesCommit || (ln.slotB.afterHalt age).owesCommit then
              .ending why (ln.returned.map fun c => c.record.id)
            else .halted why
        slotA := ln.slotA.afterHalt age, slotB := ln.slotB.afterHalt age
        queue := ln.returned ++ ln.queue
        stopPending := false, awaitingFirstBeat := false
        pins := match ln.config.mode with
          | .play => { ld := some ln.config.idleWord, lqv := some false, lmk := false }
          | .capture => { ld := none, lqv := none, lmk := false } } := by
  unfold Lane.halted Lane.stopIn Lane.quietPins
  rw [if_pos canHalt]
  cases ln.config.mode with
  | play => rfl
  | capture =>
    dsimp only
    split <;> rfl

/-- What its halt tells: its CUE END ahead of its LANE HALTED, which an ENDING lane keeps back. -/
theorem Lane.haltTold_eq {ln : Lane} (l : LaneId) (age : Nat) (why : HaltReason) (canHalt : ln.state.canHalt = true) :
    ln.haltTold l age why =
      match ln.config.mode with
      | .play => (match ln.halted? with
          | some (c, o) => cueEndOf l c o
          | none => []) ++ [.laneHalted l why ln.lastCue (ln.returned.map fun c => c.record.id)]
      | .capture => if (ln.slotA.afterHalt age).owesCommit || (ln.slotB.afterHalt age).owesCommit then []
          else [.laneHalted l why ln.lastCue (ln.returned.map fun c => c.record.id)] := by
  unfold Lane.haltTold
  exact if_pos canHalt

theorem Lane.halted_stopped {ln : Lane} (age : Nat) (why : HaltReason) (stopped : ln.state.canHalt = false) :
    ln.halted age why = ln := by
  simp [Lane.halted, stopped]

theorem Lane.haltTold_stopped {ln : Lane} (l : LaneId) (age : Nat) (why : HaltReason)
    (stopped : ln.state.canHalt = false) : ln.haltTold l age why = [] := by
  simp [Lane.haltTold, stopped]

theorem LaneState.runsOrStalls_iff (st : LaneState) :
    st.runsOrStalls = true ↔ st = .running ∨ ∃ cause, st = .stalled cause := by
  cases st <;> simp [LaneState.runsOrStalls]

theorem LaneState.canHalt_of_runsOrStalls {st : LaneState} (h : st.runsOrStalls = true) : st.canHalt = true := by
  rcases (LaneState.runsOrStalls_iff st).mp h with rfl | ⟨cause, rfl⟩ <;> rfl

/-- Four lanes are known when each is. -/
theorem PerLane.eq_of_get {α : Type} {p : PerLane α} {f : LaneId → α} (h : ∀ l, p.get l = f l) :
    p = { l0 := f .l0, l1 := f .l1, l2 := f .l2, l3 := f .l3 } :=
  PerLane.ext_get fun l => (h l).trans (by cases l <;> rfl)

/-- The lists a selection of lanes tells: what is not selected by `q` tells nothing. -/
theorem flatMap_filter_of_silent {α β : Type} (p q : α → Bool) (f g : α → List β) (xs : List α)
    (within : ∀ x, q x = true → p x = true ∧ f x = g x) (silent : ∀ x, p x = true → q x = false → f x = []) :
    (xs.filter p).flatMap f = (xs.filter q).flatMap g := by
  induction xs with
  | nil => rfl
  | cons x xs ih =>
    cases hq : q x with
    | true =>
      obtain ⟨hp, same⟩ := within x hq
      simp [hp, hq, same, ih]
    | false =>
      cases hp : p x with
      | true => simp [hp, hq, silent x hp hq, ih]
      | false => simp [hp, hq, ih]

/-! ## GROUP STOP (R126) -/

/-- GROUP STOP's halts, their notices in ascending lane order. -/
theorem State.stopMembers_eq (s : State) (g : GroupName) :
    s.stopMembers g = State.offerAll { s with lanes := (s.stopMembers g).lanes }
      ((s.members g).flatMap fun l => (s.lane l).haltTold l s.event .request) :=
  State.haltAll_frame .request (s.members g) s (by unfold State.members; exact List.Nodup.filter _ (by decide))

/-- Settles O22: the members are halted one by one, and those that cannot halt stay and tell nothing. -/
theorem groupStopHaltsMembers : Obligations.GroupStopHaltsMembers := by
  intro tag b g s read admits member ids owes stopped told after
  refine ⟨LaneState.canHalt_iff, ?_⟩
  have lanes : ((s.keptOpen tag 0x52 [b]).stopMembers g).lanes =
      { l0 := after .l0, l1 := after .l1, l2 := after .l2, l3 := after .l3 } := by
    refine PerLane.eq_of_get fun l => (State.stopMembers_lane _ g l).trans ?_
    simp only [State.lane_keptOpen, after, member]
    by_cases hg : (s.lane l).config.group = some g
    · cases canHalt : (s.lane l).state.canHalt with
      | true => simp only [hg, and_self, if_true]; exact Lane.halted_eq _ _ canHalt
      | false => simp only [hg, if_true, Bool.false_eq_true, and_false, if_false]; exact Lane.halted_stopped _ _ canHalt
    · simp only [hg, if_false, false_and]
  have notices : (((s.keptOpen tag 0x52 [b]).members g).flatMap fun l =>
      ((s.keptOpen tag 0x52 [b]).lane l).haltTold l (s.keptOpen tag 0x52 [b]).event .request) =
      ([LaneId.l0, .l1, .l2, .l3].filter fun l => member l).flatMap told := by
    refine flatMap_filter_of_silent _ _ _ _ _ (fun l chosen => ?_) fun l inGroup refused => ?_
    · obtain ⟨hg, canHalt⟩ := of_decide_eq_true chosen
      exact ⟨decide_eq_true hg, Lane.haltTold_eq l _ _ canHalt⟩
    · have hg := of_decide_eq_true inGroup
      exact Lane.haltTold_stopped l _ _ (Bool.eq_false_iff.mpr fun canHalt => of_decide_eq_false refused ⟨hg, canHalt⟩)
  rw [exec_groupStop, State.receive_fields s tag 0x52 _ _ _ _ admits (parseGroup_fields read), ownGroupStop,
    State.stopMembers_eq, notices, lanes, State.answer_offerAll,
    State.answer_opened s _ tag 0x52 [b] .withOwner .ok .none admits rfl]
  rfl

/-! ## Halt-together (R125) -/

theorem State.cascades_iff (s : State) (l : LaneId) (reason : HaltReason) (g : GroupName) :
    s.cascades l reason = some g ↔
      (s.lane l).config.group = some g ∧ (s.group g).state = .fired ∧ (s.group g).haltTogether = true ∧
        (s.lane l).state.canHalt = true ∧ reason ≠ .group := by
  unfold State.cascades
  cases (s.lane l).config.group with
  | none => simp
  | some h =>
    simp only [Option.ite_none_right_eq_some, Bool.and_eq_true, decide_eq_true_eq, Option.some.injEq]
    constructor
    · rintro ⟨⟨⟨⟨canHalt, together⟩, fired⟩, other⟩, rfl⟩
      exact ⟨rfl, fired, together, canHalt, other⟩
    · rintro ⟨rfl, fired, together, canHalt, other⟩
      exact ⟨⟨⟨⟨canHalt, together⟩, fired⟩, other⟩, rfl⟩

/-- Settles O23: a halt is one update and its notices, and halt-together is a list of halts of other lanes. -/
theorem haltTogetherReachesRunningMembers : Obligations.HaltTogetherReachesRunningMembers := by
  intro s l reason ids owes stopped told
  have others : ∀ (u : State) (g : GroupName), u.event = s.event → (∀ m, m ≠ l → u.lane m = s.lane m) →
      (∀ m, (u.haltOthers l g).lane m =
        if m ≠ l ∧ (s.lane m).config.group = some g ∧ (s.lane m).state.runsOrStalls = true then
          stopped .group (s.lane m) else u.lane m) ∧
      u.haltOthers l g = State.offerAll { u with lanes := (u.haltOthers l g).lanes }
        (([LaneId.l0, .l1, .l2, .l3].filter fun m =>
          m ≠ l ∧ (s.lane m).config.group = some g ∧ (s.lane m).state.runsOrStalls = true).flatMap (told .group)) := by
    intro u g event same
    refine ⟨fun m => ?_, ?_⟩
    · rw [State.haltOthers_lane, event]
      by_cases hm : m = l
      · simp [hm]
      · rw [same m hm]
        by_cases reached : m ≠ l ∧ (s.lane m).config.group = some g ∧ (s.lane m).state.runsOrStalls = true
        · rw [if_pos reached, if_pos reached]
          exact Lane.halted_eq _ _ (LaneState.canHalt_of_runsOrStalls reached.2.2)
        · rw [if_neg reached, if_neg reached]
    · refine (State.haltOthers_eq u l g).trans ?_
      have chosen : (laneOrder.filter fun m =>
          decide (m ≠ l ∧ (u.lane m).config.group = some g ∧ (u.lane m).state.runsOrStalls = true)) =
          [LaneId.l0, .l1, .l2, .l3].filter fun m =>
            m ≠ l ∧ (s.lane m).config.group = some g ∧ (s.lane m).state.runsOrStalls = true := by
        refine List.filter_congr fun m _ => ?_
        by_cases hm : m = l
        · simp [hm]
        · rw [same m hm]
      rw [chosen]
      refine congrArg _ (List.flatMap_congr fun m hm => ?_)
      obtain ⟨other, _, runs⟩ := of_decide_eq_true (List.mem_filter.mp hm).2
      rw [same m other, event]
      exact Lane.haltTold_eq m _ _ (LaneState.canHalt_of_runsOrStalls runs)
  have one : (s.lane l).state.canHalt = true →
      s.haltOne l reason = (s.setLane l (stopped reason (s.lane l))).offerAll (told reason l) := by
    intro canHalt
    rw [State.haltOne_eq, Lane.halted_eq _ _ canHalt, Lane.haltTold_eq _ _ _ canHalt] <;> rfl
  refine ⟨fun st => ⟨st.canHalt_iff, st.runsOrStalls_iff⟩, s.cascades_iff l reason, fun stays => ?_, one,
    s.halt_eq_together l reason, fun g => ?_, fun g sets => ?_⟩
  · simp [State.haltOne, stays]
  · obtain ⟨lanes, frame⟩ := others s g rfl fun _ _ => rfl
    refine frame.trans ?_
    rw [PerLane.eq_of_get lanes]
  · obtain ⟨_, _, _, canHalt, _⟩ := (s.cascades_iff l reason g).mp sets
    have halted : s.halt l reason = (s.haltOne l reason).haltOthers l g := by
      rw [State.halt_eq_together, sets]
      rfl
    obtain ⟨lanes, frame⟩ := others (s.haltOne l reason) g (State.LaneWork.haltOne s l reason).event_eq
      fun m hm => State.haltOne_lane_other s l m reason hm
    refine ⟨?_, ?_, fun noReset => ?_, fun m hm => ?_⟩
    · have work := State.LaneWork.halt s l reason
      have owed := State.halt_stalls s l reason
      unfold State.LaneWork at work
      rw [owed] at work
      exact work
    · rw [halted, lanes, if_neg (by simp)]
    · rw [halted, frame, one canHalt, State.offerAll_eq _ _ (by simpa using noReset),
        State.offerAll_eq _ _ (by simpa using noReset)]
      simp only [NoticeQueue.joinAll, List.foldl_append, State.setLane_notices]
    · rw [halted, lanes, State.haltOne_lane_other s l m reason hm]
      simp only [hm, ne_eq, not_false_eq_true, true_and]

/-! ## The TRIG edge (R122) -/

/-- The group waits for the edge and is ARMED. -/
def State.edgeFires (s : State) (rising : Bool) (g : GroupName) : Prop :=
  (s.group g).trigger.waitsFor rising = true ∧ (s.group g).state = .armed

/-- What one group tells of the edge (Table 7-3). -/
def State.edgeTold (s : State) (rising : Bool) (g : GroupName) : List Notice :=
  if (s.group g).trigger.waitsFor rising = true then
    if (s.group g).state = .armed then [.groupFired g (s.readyMembers g)] else [.triggerIgnored g (s.group g).state]
  else []

/-- A change of lanes, groups and notices behind another is such a change. -/
theorem State.groupFrame_trans {s t u : State} (h : t = { s with lanes := t.lanes, groups := t.groups, notices := t.notices })
    (k : u = { t with lanes := u.lanes, groups := u.groups, notices := u.notices }) :
    u = { s with lanes := u.lanes, groups := u.groups, notices := u.notices } := by
  rw [k, h]

/-- An edge at a group fires it, or tells at most one notice. -/
theorem State.edgeAt_cases (s : State) (rising : Bool) (g : GroupName) (noReset : s.link.deviceReset = none) :
    (s.edgeFires rising g ∧ s.edgeAt rising g = s.fire g) ∨
      (¬ s.edgeFires rising g ∧ s.edgeAt rising g = { s with notices := s.notices.joinAll (s.edgeTold rising g) }) := by
  unfold State.edgeAt State.edgeFires State.edgeTold
  by_cases waits : (s.group g).trigger.waitsFor rising = true
  · cases state : (s.group g).state with
    | armed => exact .inl ⟨⟨waits, rfl⟩, if_pos waits⟩
    | opened => exact .inr ⟨by simp, by rw [if_pos waits, if_pos waits]; exact State.offer_eq s _ noReset⟩
    | fired => exact .inr ⟨by simp, by rw [if_pos waits, if_pos waits]; exact State.offer_eq s _ noReset⟩
  · exact .inr ⟨fun h => waits h.1, by rw [if_neg waits, if_neg waits]; rfl⟩

section

variable {s : State} {rising : Bool} {g : GroupName}

theorem State.edgeAt_frame (noReset : s.link.deviceReset = none) :
    s.edgeAt rising g = { s with
      lanes := (s.edgeAt rising g).lanes, groups := (s.edgeAt rising g).groups
      notices := (s.edgeAt rising g).notices } := by
  rcases s.edgeAt_cases rising g noReset with ⟨_, e⟩ | ⟨_, e⟩ <;> rw [e]
  rw [State.fire_frame]

theorem State.edgeAt_lane (noReset : s.link.deviceReset = none) (l : LaneId) :
    (s.edgeFires rising g → (s.lane l).config.group = some g → (s.lane l).state = .ready →
      (s.edgeAt rising g).lane l = (s.lane l).fireAt s.now) ∧
    (((s.lane l).config.group = some g → (s.lane l).state = .ready → ¬ s.edgeFires rising g) →
      (s.edgeAt rising g).lane l = s.lane l) := by
  rcases s.edgeAt_cases rising g noReset with ⟨fires, e⟩ | ⟨stays, e⟩ <;> rw [e]
  · rw [State.fire_lane]
    refine ⟨fun _ member ready => if_pos ⟨member, ready⟩, fun unmoved => if_neg fun ⟨member, ready⟩ => unmoved member ready fires⟩
  · exact ⟨fun fires => absurd fires stays, fun _ => rfl⟩

theorem State.edgeAt_group (noReset : s.link.deviceReset = none) (h : GroupName) :
    ((h = g ∧ s.edgeFires rising g) → (s.edgeAt rising g).group h = { s.group h with state := .fired }) ∧
    (¬ (h = g ∧ s.edgeFires rising g) → (s.edgeAt rising g).group h = s.group h) := by
  rcases s.edgeAt_cases rising g noReset with ⟨fires, e⟩ | ⟨stays, e⟩ <;> rw [e]
  · rw [State.fire_group]
    refine ⟨fun ⟨same, _⟩ => ?_, fun other => if_neg fun same => other ⟨same, fires⟩⟩
    subst same
    exact if_pos rfl
  · exact ⟨fun fires => absurd fires.2 stays, fun _ => rfl⟩

theorem State.edgeAt_notices (noReset : s.link.deviceReset = none) :
    (s.edgeAt rising g).notices = s.notices.joinAll (s.edgeTold rising g) := by
  rcases s.edgeAt_cases rising g noReset with ⟨⟨waits, armed⟩, e⟩ | ⟨stays, e⟩ <;> rw [e]
  rw [State.fire_notices g noReset, State.edgeTold, if_pos waits, if_pos armed]
  rfl

/-- The edge at one group leaves alone what it does at the other. -/
theorem State.edgeAt_other {h : GroupName} (noReset : s.link.deviceReset = none) (other : h ≠ g) :
    (∀ l, (((s.edgeAt rising g).lane l).config.group = some h ∧ ((s.edgeAt rising g).lane l).state = .ready) ↔
      ((s.lane l).config.group = some h ∧ (s.lane l).state = .ready)) ∧
    ((s.edgeAt rising g).edgeFires rising h ↔ s.edgeFires rising h) ∧
    (s.edgeAt rising g).edgeTold rising h = s.edgeTold rising h := by
  have group : (s.edgeAt rising g).group h = s.group h := (State.edgeAt_group noReset h).2 fun both => other both.1
  have lanes : ∀ l, (s.lane l).config.group = some h → (s.edgeAt rising g).lane l = s.lane l := fun l member =>
    (State.edgeAt_lane noReset l).2 fun member' => absurd (Option.some.inj (member.symm.trans member')) other
  have config : ∀ l, ((s.edgeAt rising g).lane l).config = (s.lane l).config := by
    intro l
    rcases s.edgeAt_cases rising g noReset with ⟨_, e⟩ | ⟨_, e⟩ <;> rw [e]
    · rw [State.fire_lane]
      split
      · exact Lane.fireAt_config _ _
      · rfl
    · rfl
  have ready : ∀ l, (((s.edgeAt rising g).lane l).config.group = some h ∧ ((s.edgeAt rising g).lane l).state = .ready) ↔
      ((s.lane l).config.group = some h ∧ (s.lane l).state = .ready) := by
    intro l
    rw [config]
    exact and_congr_right fun member => by rw [lanes l member]
  refine ⟨ready, by rw [State.edgeFires, group]; rfl, ?_⟩
  simp only [State.edgeTold, group, State.readyMembers_eq, ready]

/-- An edge at both groups, `g` first: lanes and groups do not depend on the order. -/
theorem State.edgeAt_both {h : GroupName} (noReset : s.link.deviceReset = none) (other : h ≠ g) :
    let u := (s.edgeAt rising g).edgeAt rising h
    u = { s with lanes := u.lanes, groups := u.groups, notices := u.notices } ∧
    (∀ l k, ((s.lane l).config.group = some k ∧ (s.lane l).state = .ready) → s.edgeFires rising k → (k = g ∨ k = h) →
      u.lane l = (s.lane l).fireAt s.now) ∧
    (∀ l, (∀ k, ((s.lane l).config.group = some k ∧ (s.lane l).state = .ready) → ¬ s.edgeFires rising k) →
      u.lane l = s.lane l) ∧
    (∀ k, (k = g ∨ k = h) →
      (s.edgeFires rising k → u.group k = { s.group k with state := .fired }) ∧
      (¬ s.edgeFires rising k → u.group k = s.group k)) ∧
    u.notices = s.notices.joinAll (s.edgeTold rising g ++ s.edgeTold rising h) := by
  intro u
  have frame := State.edgeAt_frame (s := s) (rising := rising) (g := g) noReset
  have noReset' : (s.edgeAt rising g).link.deviceReset = none := by rw [frame]; exact noReset
  have now : (s.edgeAt rising g).now = s.now := by rw [frame]
  obtain ⟨ready, fires, told⟩ := State.edgeAt_other (rising := rising) noReset other
  refine ⟨?_, ?_, ?_, ?_, ?_⟩
  · have second := State.edgeAt_frame (s := s.edgeAt rising g) (rising := rising) (g := h) noReset'
    exact State.groupFrame_trans frame second
  · rintro l k ⟨member, isReady⟩ fire (rfl | rfl)
    · have untouched := (State.edgeAt_lane (rising := rising) (g := h) noReset' l).2 fun member' isReady' =>
        absurd (Option.some.inj (((ready l).mp ⟨member', isReady'⟩).1.symm.trans member)) other
      exact untouched.trans ((State.edgeAt_lane noReset l).1 fire member isReady)
    · obtain ⟨member', isReady'⟩ := (ready l).mpr ⟨member, isReady⟩
      have moved := (State.edgeAt_lane (rising := rising) noReset' l).1 (fires.mpr fire) member' isReady'
      have first := (State.edgeAt_lane (rising := rising) (g := g) noReset l).2 fun other' =>
        absurd (Option.some.inj (member.symm.trans other')) other
      rw [first, now] at moved
      exact moved
  · intro l quiet
    have first := (State.edgeAt_lane (rising := rising) (g := g) noReset l).2 fun member isReady => quiet g ⟨member, isReady⟩
    have second := (State.edgeAt_lane (rising := rising) (g := h) noReset' l).2 fun member isReady fire =>
      quiet h ((ready l).mp ⟨member, isReady⟩) (fires.mp fire)
    exact second.trans first
  · rintro k (rfl | rfl)
    · have second := (State.edgeAt_group (rising := rising) (g := h) noReset' k).2 fun both => other both.1.symm
      refine ⟨fun fire => second.trans ((State.edgeAt_group noReset k).1 ⟨rfl, fire⟩),
        fun stays => second.trans ((State.edgeAt_group noReset k).2 fun both => stays both.2)⟩
    · have first := (State.edgeAt_group (rising := rising) (g := g) noReset k).2 fun both => other both.1
      refine ⟨fun fire => ?_, fun stays => ?_⟩
      · rw [← first]
        exact (State.edgeAt_group noReset' k).1 ⟨rfl, fires.mpr fire⟩
      · rw [← first]
        exact (State.edgeAt_group noReset' k).2 fun both => stays (fires.mp both.2)
  · rw [State.edgeAt_notices noReset', State.edgeAt_notices noReset, told]
    simp only [NoticeQueue.joinAll, List.foldl_append]

end

theorem exec_trigEdge_none {level : Bool} {heldNs : Nat} {s : State} (high : s.resetn = true)
    (none : level = s.trigLevel ∨ heldNs < 50) :
    exec (.trigEdge level heldNs) s = .next { s with event := s.event + 1 }.transmit := by
  have kept : level = s.nextEvent.trigLevel ∨ heldNs < Config.edgeNs := none
  change execTrigEdge level heldNs s = _
  rw [execTrigEdge, State.happen_high s _ high, if_pos kept]
  rfl

theorem exec_trigEdge_taken {level : Bool} {heldNs : Nat} {s : State} (high : s.resetn = true)
    (changed : level ≠ s.trigLevel) (held : 50 ≤ heldNs) :
    ∃ g h : GroupName, h ≠ g ∧ (∀ k, k = g ∨ k = h) ∧ (g = .g1 ∨ g = .g2) ∧
      exec (.trigEdge level heldNs) s =
        .next ((State.edgeAt { s with event := s.event + 1, trigLevel := level } level g).edgeAt level h).transmit := by
  have edge : ¬ (level = s.nextEvent.trigLevel ∨ heldNs < Config.edgeNs) := not_or.mpr ⟨changed, Nat.not_lt.mpr held⟩
  have run : exec (.trigEdge level heldNs) s =
      .next (if Config.g1First (s.event + 1) then
        (State.edgeAt { s with event := s.event + 1, trigLevel := level } level .g1).edgeAt level .g2
        else (State.edgeAt { s with event := s.event + 1, trigLevel := level } level .g2).edgeAt level .g1).transmit := by
    change execTrigEdge level heldNs s = _
    rw [execTrigEdge, State.happen_high s _ high, if_neg edge]
    rfl
  rw [run]
  cases Config.g1First (s.event + 1) with
  | true => exact ⟨.g1, .g2, by decide, fun k => by cases k <;> simp, .inl rfl, rfl⟩
  | false => exact ⟨.g2, .g1, by decide, fun k => by cases k <;> simp, .inr rfl, rfl⟩

/-- Settles O24: the edge is taken at one group and then at the other, and each leaves the other's share alone. -/
theorem trigEdgeReachesBothGroups : Obligations.TrigEdgeReachesBothGroups := by
  intro level heldNs s high noReset
  refine ⟨exec_trigEdge_none high, ?_, rfl, rfl, rfl⟩
  intro changed held fires started notice
  obtain ⟨g, h, other, all, first, run⟩ := exec_trigEdge_taken high changed held
  obtain ⟨frame, moved, stays, groups, notices⟩ := State.edgeAt_both
    (s := { s with event := s.event + 1, trigLevel := level }) (rising := level) noReset other
  have told : ∀ k, State.edgeTold { s with event := s.event + 1, trigLevel := level } level k = notice k := by
    intro k
    simp only [State.edgeTold, State.readyMembers_eq, notice]
    rfl
  refine ⟨_, run, frame, fun l k start fire => moved l k start fire (all k), fun l quiet => stays l fun k => quiet k,
    fun k => ?_, ?_⟩
  · by_cases fire : fires k
    · rw [if_pos fire]
      exact (groups k (all k)).1 fire
    · rw [if_neg fire]
      exact (groups k (all k)).2 fire
  · rw [notices, told, told]
    rcases first with rfl | rfl
    · obtain rfl : h = .g2 := (all .g2).resolve_left (by decide) |>.symm
      exact .inl rfl
    · obtain rfl : h = .g1 := (all .g1).resolve_left (by decide) |>.symm
      exact .inr rfl

/-! ## The end of an event (R120, R124) -/

/-- A group's state by its members' states: the other group and its own settings play no part. -/
theorem State.regroup_group (s : State) (g : GroupName) :
    s.regroup.group g = { s.group g with
      state := match (s.group g).state with
        | .opened => s.gathered g
        | .armed => s.gathered g
        | .fired => if (s.members g).any fun l => (s.lane l).state.keepsFired then .fired else .opened } := by
  cases g <;> rfl

theorem State.gathered_iff (s : State) (g : GroupName) :
    s.gathered g = .armed ↔
      (∃ l, (s.lane l).config.group = some g ∧ (s.lane l).state = .ready) ∧
        ¬ ∃ l, (s.lane l).config.group = some g ∧ (s.lane l).state = .priming := by
  have found : ∀ st : LaneState, ((s.members g).map fun l => (s.lane l).state).contains st = true ↔
      ∃ l, (s.lane l).config.group = some g ∧ (s.lane l).state = st := by
    intro st
    simp only [List.contains_iff_mem, List.mem_map, State.mem_members]
  simp only [State.gathered, ← found]
  cases ((s.members g).map fun l => (s.lane l).state).contains .ready <;>
    cases ((s.members g).map fun l => (s.lane l).state).contains .priming <;> simp

theorem State.gathered_ne_fired (s : State) (g : GroupName) : s.gathered g ≠ .fired := by
  unfold State.gathered
  dsimp only
  split <;> simp

theorem LaneState.keepsFired_iff (st : LaneState) :
    st.keepsFired = true ↔
      st = .running ∨ (∃ cause, st = .stalled cause) ∨ ∃ reason ids, st = .ending reason ids := by
  cases st <;> simp [LaneState.keepsFired]

/-- Settles O25, by the group's state before the event's end. -/
theorem groupsFollowTheirMembers : Obligations.GroupsFollowTheirMembers := by
  intro s g member
  refine ⟨s.regroup_frame, ?_, ?_, fun unfired => ?_, fun fired => ?_, LaneState.keepsFired_iff⟩
  · rw [State.regroup_group]
  · rw [State.regroup_group]
  · have state : (s.regroup.group g).state = s.gathered g := by
      rw [State.regroup_group]
      cases h : (s.group g).state with
      | opened => rfl
      | armed => rfl
      | fired => exact absurd h unfired
    rw [state, State.gathered_iff]
    exact ⟨by simp only [member, decide_eq_true_eq], s.gathered_ne_fired g⟩
  · have state : (s.regroup.group g).state =
        if (s.members g).any fun l => (s.lane l).state.keepsFired then .fired else .opened := by
      rw [State.regroup_group, fired]
    have any : ((s.members g).any fun l => (s.lane l).state.keepsFired) = true ↔ member LaneState.keepsFired := by
      simp only [List.any_eq_true, State.mem_members, member]
    rw [state, ← any]
    cases (s.members g).any fun l => (s.lane l).state.keepsFired <;> simp

end Sys2Proof.Machine
end

section
/-! SUPPORT and the obligations of the BEATS: the clock sources, the play beat, span ends, running dry and underruns, the
capture beat and its span end (R26 to R28, R34, R37 to R42, R67 to R77, R91 to R97). -/

namespace Sys2Proof.Machine

open Sys2Proof

/-! ## One lane changed and some notices offered: the form that every step of a beat keeps -/

/-- Lane `l` is now `x`, and the notices `ns` have been offered. -/
def State.worked (s : State) (l : LaneId) (x : Lane) (ns : List Notice) : State := (s.setLane l x).offerAll ns

section

variable (s : State) (l : LaneId) (x : Lane) (ns : List Notice)

@[simp] theorem State.worked_lane : (s.worked l x ns).lane l = x := by
  simp [State.worked]

@[simp] theorem State.worked_event : (s.worked l x ns).event = s.event := by
  simp [State.worked]

@[simp] theorem State.worked_group (g : GroupName) : (s.worked l x ns).group g = s.group g := by
  simp [State.worked]

@[simp] theorem State.worked_setLane (y : Lane) : (s.worked l x ns).setLane l y = s.worked l y ns := by
  simp only [State.worked, ← State.offerAll_setLane, State.setLane_setLane]

@[simp] theorem State.worked_mapLane (f : Lane → Lane) : (s.worked l x ns).mapLane l f = s.worked l (f x) ns := by
  simp only [State.mapLane_eq, State.worked_setLane, State.worked_lane]

theorem State.worked_offerAll (ms : List Notice) : (s.worked l x ns).offerAll ms = s.worked l x (ns ++ ms) := by
  simp only [State.worked, State.offerAll_append]

@[simp] theorem State.worked_offer (n : Notice) : (s.worked l x ns).offer n = s.worked l x (ns ++ [n]) :=
  State.worked_offerAll s l x ns [n]

@[simp] theorem State.worked_retire (c : HeldCue) (o : CueOutcome) :
    (s.worked l x ns).retire l c o = s.worked l x (ns ++ cueEndOf l c o) := by
  rw [State.retire_eq, State.worked_offerAll]

theorem State.mapLane_worked (f : Lane → Lane) : s.mapLane l f = s.worked l (f (s.lane l)) [] := rfl

/-- A lane's own halt in this form. -/
theorem State.worked_haltOne (reason : HaltReason) :
    (s.worked l x ns).haltOne l reason = s.worked l (x.halted s.event reason) (ns ++ x.haltTold l s.event reason) := by
  rw [State.haltOne_eq, State.worked_lane, State.worked_event, State.worked_setLane, State.worked_offerAll]

variable {s l x}

/-- A halt looks at the lane's group and at whether it can halt, so work on the lane leaves its halt-together the same. -/
theorem State.worked_cascades (group : x.config.group = (s.lane l).config.group)
    (canHalt : x.state.canHalt = (s.lane l).state.canHalt) (reason : HaltReason) :
    (s.worked l x ns).cascades l reason = s.cascades l reason := by
  simp only [State.cascades, State.worked_lane, State.worked_group, group, canHalt]

/-- A halt behind work on the lane. -/
theorem State.worked_halt (group : x.config.group = (s.lane l).config.group)
    (canHalt : x.state.canHalt = (s.lane l).state.canHalt) (reason : HaltReason) :
    (s.worked l x ns).halt l reason =
      (s.worked l (x.halted s.event reason) (ns ++ x.haltTold l s.event reason)).together l (s.cascades l reason) := by
  rw [State.halt_eq_together, State.worked_haltOne, State.worked_cascades ns group canHalt]

theorem State.worked_stallDry (id : Byte) :
    (s.worked l x ns).stallDry l id = (s.worked l { x.quiet with state := .stalled .dry } ns).oweStall l id .dry := by
  rw [State.stallDry, State.worked_mapLane]

end

/-! ## Clock sources (R26 to R28) -/

theorem exec_dividerExpiry_internal {l : LaneId} {ld : Byte} {lqv : Bool} {s : State} {d : Nat} (high : s.resetn = true)
    (clock : (s.lane l).config.clock = .internal d) :
    exec (.dividerExpiry l ld lqv) s =
      .next ((State.setLane { s with event := s.event + 1 } l { s.lane l with dividerStart := s.now }).beat
        l ld lqv).endEvent.transmit := by
  have same : ((s.nextEvent.mapLane l fun ln => { ln with dividerStart := s.nextEvent.now }).lane l).config.clock =
      .internal d := by
    rw [State.lane_mapLane_same]
    exact clock
  change execDividerExpiry l ld lqv s = _
  rw [execDividerExpiry, State.happen_high s _ high]
  dsimp only
  rw [same]
  rfl

theorem exec_dividerExpiry_external {l : LaneId} {ld : Byte} {lqv : Bool} {s : State} (high : s.resetn = true)
    (clock : (s.lane l).config.clock = .external) :
    exec (.dividerExpiry l ld lqv) s =
      .next (State.setLane { s with event := s.event + 1 } l { s.lane l with dividerStart := s.now }).transmit := by
  have same : ((s.nextEvent.mapLane l fun ln => { ln with dividerStart := s.nextEvent.now }).lane l).config.clock =
      .external := by
    rw [State.lane_mapLane_same]
    exact clock
  change execDividerExpiry l ld lqv s = _
  rw [execDividerExpiry, State.happen_high s _ high]
  dsimp only
  rw [same]
  rfl

theorem exec_lckEdge_internal {l : LaneId} {afterNs : Nat} {ld : Byte} {lqv : Bool} {s : State} {d : Nat}
    (high : s.resetn = true) (clock : (s.lane l).config.clock = .internal d) :
    exec (.lckEdge l afterNs ld lqv) s = .next { s with event := s.event + 1 }.transmit := by
  have same : (s.nextEvent.lane l).config.clock = .internal d := clock
  change execLckEdge l afterNs ld lqv s = _
  rw [execLckEdge, State.happen_high s _ high]
  simp only [same]
  rfl

theorem exec_lckEdge_external {l : LaneId} {afterNs : Nat} {ld : Byte} {lqv : Bool} {s : State} (high : s.resetn = true)
    (clock : (s.lane l).config.clock = .external) :
    exec (.lckEdge l afterNs ld lqv) s =
      .next (if (s.lane l).takesEdge (s.now + afterNs) then
        ((State.setLane { s with event := s.event + 1 } l { s.lane l with lastEdge := some (s.now + afterNs) }).beat
          l ld lqv).endEvent
        else { s with event := s.event + 1 }).transmit := by
  have same : (s.nextEvent.lane l).config.clock = .external := clock
  change execLckEdge l afterNs ld lqv s = _
  rw [execLckEdge, State.happen_high s _ high]
  simp only [same]
  rfl

theorem Lane.takesEdge_iff (ln : Lane) (moment : Nat) :
    ln.takesEdge moment = true ↔ ln.lastEdge = none ∨ ∃ t, ln.lastEdge = some t ∧ t + 50 ≤ moment := by
  unfold Lane.takesEdge
  cases ln.lastEdge <;> simp

/-- No slot is LOADED. -/
theorem Lane.resumeSlot_none {ln : Lane} (cause : StallCause) (a : ln.slotA.isLoaded = false)
    (b : ln.slotB.isLoaded = false) : ln.resumeSlot cause = none := by
  have slots : ∀ n, (ln.slot n).isLoaded = false := fun n => by cases n <;> assumption
  unfold Lane.resumeSlot
  split
  · rw [Lane.oldestWhere_eq_none]
    intro n loaded
    simp [slots n] at loaded
  · simp [slots]

section

variable {s : State} {l : LaneId} {ld : Byte} {lqv : Bool}

theorem State.beat_running (h : (s.lane l).state = .running) : s.beat l ld lqv = s.runningBeat l ld lqv := by
  simp only [State.beat, h]

theorem State.beat_ready (h : (s.lane l).state = .ready) : s.beat l ld lqv = s.readyBeat l ld lqv := by
  simp only [State.beat, h]

theorem State.beat_stalled_play {cause : StallCause} (h : (s.lane l).state = .stalled cause)
    (mode : (s.lane l).config.mode = .play) : s.beat l ld lqv = s.stalledPlayBeat l cause := by
  simp only [State.beat, h, mode]

theorem State.beat_stalled_capture {cause : StallCause} (h : (s.lane l).state = .stalled cause)
    (mode : (s.lane l).config.mode = .capture) : s.beat l ld lqv = s.stalledCaptureBeat l lqv cause := by
  simp only [State.beat, h, mode]

end

/-- Settles O26: the clock source decides what is a beat, and the lane's state what a beat does. -/
theorem beatsComeFromTheClockSource : Obligations.BeatsComeFromTheClockSource := by
  intro l afterNs ld lqv s ln edge heard
  refine ⟨fun d high clock => ⟨exec_dividerExpiry_internal high clock, exec_lckEdge_internal high clock⟩,
    fun high clock => ⟨exec_dividerExpiry_external high clock, fun taken => ?_, fun t last soon => ?_⟩, fun state => ?_,
    fun ready grouped => ?_, fun dry a b => ?_, fun dry mode => ?_⟩
  · rw [exec_lckEdge_external high clock, if_pos ((Lane.takesEdge_iff _ _).mpr taken)]
  · refine (exec_lckEdge_external high clock).trans ?_
    rw [if_neg]
    intro takes
    rcases (Lane.takesEdge_iff _ _).mp takes with none | ⟨t', last', late⟩
    · cases last.symm.trans none
    · obtain rfl : t = t' := Option.some.inj (last.symm.trans last')
      exact absurd late (Nat.not_le.mpr soon)
  · rcases state with h | h | ⟨r, h⟩ | ⟨r, ids, h⟩ | h <;> simp only [State.beat, show (s.lane l).state = _ from h]
  · rw [State.beat_ready ready, State.readyBeat]
    cases group : (s.lane l).config.group with
    | none => exact absurd group grouped
    | some g => rfl
  · cases mode : (s.lane l).config.mode with
    | play =>
      rw [State.beat_stalled_play dry mode, State.stalledPlayBeat, Lane.resumeSlot_none .dry a b]
      rfl
    | capture =>
      rw [State.beat_stalled_capture dry mode]
      exact if_neg fun overrun => by cases overrun.2
  · rw [State.beat_stalled_capture dry mode]
    exact if_neg fun overrun => by cases overrun.2

/-! ## A word on the pins (R37) -/

/-- The lane after it has shown a word of the cue in slot `n`, that slot being `x` from then on. -/
def Lane.shown (ln : Lane) (n : SlotName) (w : Byte) (mark : Bool) (x : Slot) : Lane :=
  { ln.setSlot n x with
    lastWord := w, pins := { ld := some w, lqv := some true, lmk := mark }, awaitingFirstBeat := false }

section

variable (ln : Lane) (n : SlotName) (w : Byte) (mark : Bool) (x y : Slot)

theorem Lane.present_eq_shown :
    { (ln.present w mark).setSlot n x with awaitingFirstBeat := false } = ln.shown n w mark x := by
  cases n <;> rfl

@[simp] theorem Lane.shown_setSlot : (ln.shown n w mark x).setSlot n y = ln.shown n w mark y := by
  cases n <;> rfl

@[simp] theorem Lane.shown_slot : (ln.shown n w mark x).slot n = x := by
  cases n <;> rfl

@[simp] theorem Lane.shown_slot_other : (ln.shown n w mark x).slot n.other = ln.slot n.other := by
  cases n <;> rfl

@[simp] theorem Lane.shown_config : (ln.shown n w mark x).config = ln.config := by
  cases n <;> rfl

@[simp] theorem Lane.shown_state : (ln.shown n w mark x).state = ln.state := by
  cases n <;> rfl

@[simp] theorem Lane.shown_stopPending : (ln.shown n w mark x).stopPending = ln.stopPending := by
  cases n <;> rfl

@[simp] theorem Lane.shown_queue : (ln.shown n w mark x).queue = ln.queue := by
  cases n <;> rfl

@[simp] theorem Lane.shown_lastCue : (ln.shown n w mark x).lastCue = ln.lastCue := by
  cases n <;> rfl

@[simp] theorem Lane.shown_lateCues : (ln.shown n w mark x).lateCues = ln.lateCues := by
  cases n <;> rfl

end

/-- The word that a slot holds at the pointer. -/
theorem wordAt_eq {tap pointer w : Byte} {words : List Byte} (inSpan : tap.toNat ≤ pointer.toNat)
    (held : words[pointer.toNat - tap.toNat]? = some w) : wordAt tap words pointer = w := by
  rw [wordAt, if_neg (Nat.not_lt.mpr inSpan), List.getD_eq_getElem?_getD, held]
  rfl

/-- CUE START at a cue's first word. -/
theorem State.worked_cueStart (s : State) (l : LaneId) (x : Lane) (c : Cue) (begun : Bool) (row : Option Row)
    (generation : Option Byte) :
    (if (!begun && c.notifyStart) = true then (s.worked l x []).offer (.cueStart l c.id row generation)
      else s.worked l x []) = s.worked l x (cueStartOf l c begun row generation) := by
  cases begun <;> cases h : c.notifyStart <;> simp [cueStartOf, h]

section

variable {s : State} {l : LaneId} {ld : Byte} {lqv : Bool} {n : SlotName} {c : HeldCue} {words : List Byte}
  {res : Resolution} {p : Progress} {w : Byte}

theorem State.beat_playing (state : (s.lane l).state = .running) (mode : (s.lane l).config.mode = .play)
    (active : (s.lane l).activeSlot = some n) (slot : (s.lane l).slot n = .playing c words res p) :
    s.beat l ld lqv = s.presentWord l n c words res p := by
  simp only [State.beat_running state, State.runningBeat, mode, State.playBeat, active, slot]

/-- The play beat before the last column: the pointer moves on. -/
theorem State.beat_within (state : (s.lane l).state = .running) (mode : (s.lane l).config.mode = .play)
    (active : (s.lane l).activeSlot = some n) (slot : (s.lane l).slot n = .playing c words res p)
    (word : wordAt c.record.tap words p.pointer = w) (before : p.pointer.toNat < c.record.last.toNat) :
    s.beat l ld lqv = s.worked l
      ((s.lane l).shown n w (!p.begun && c.record.mark)
        (.playing c words res { p with begun := true, finalShown := false, pointer := p.pointer + 1 }))
      (cueStartOf l c.record p.begun (some res.row) res.generation) := by
  rw [State.beat_playing state mode active slot, State.presentWord]
  simp only [word, before, decide_true, Bool.not_true, Bool.false_and, State.mapLane_worked s l, Lane.present_eq_shown,
    State.worked_cueStart, Bool.not_false, if_true, State.worked_mapLane, Lane.shown_setSlot]

/-- The play beat at the last column: what comes next goes by stop pending and the repetitions left. -/
theorem State.beat_atLast (state : (s.lane l).state = .running) (mode : (s.lane l).config.mode = .play)
    (active : (s.lane l).activeSlot = some n) (slot : (s.lane l).slot n = .playing c words res p)
    (word : wordAt c.record.tap words p.pointer = w) (last : c.record.last.toNat ≤ p.pointer.toNat) {u : State}
    (shown : s.worked l
      ((s.lane l).shown n w (!p.begun && c.record.mark)
        (.playing c words res { p with begun := true, finalShown := p.repsLeft.isFinal }))
      (cueStartOf l c.record p.begun (some res.row) res.generation) = u) :
    s.beat l ld lqv =
      if (s.lane l).stopPending then u.halt l .request
      else
        match p.repsLeft with
        | .count k =>
          if 1 < k then
            u.mapLane l fun ln => ln.setSlot n (.playing c words res
              { pointer := c.record.tap, repsLeft := .count (k - 1), begun := true, finalShown := p.repsLeft.isFinal })
          else u.spanEnd l n c
        | .continuous => u.endContinuous l n c (.playing c words res
            { p with begun := true, finalShown := p.repsLeft.isFinal, pointer := c.record.tap }) := by
  have atLast : ¬ p.pointer.toNat < c.record.last.toNat := Nat.not_lt.mpr last
  rw [State.beat_playing state mode active slot, State.presentWord]
  simp only [word, atLast, decide_false, Bool.not_false, Bool.true_and, State.mapLane_worked s l, Lane.present_eq_shown,
    State.worked_cueStart, Bool.not_true, Bool.false_eq_true, if_false, shown]
  have stop : (u.lane l).stopPending = (s.lane l).stopPending := by rw [← shown, State.worked_lane, Lane.shown_stopPending]
  rw [stop] <;> rfl

end

/-- Settles O27: a beat inside the span shows its word and moves the pointer, at the last column back to the tap. -/
theorem playBeatPresentsTheNextWord : Obligations.PlayBeatPresentsTheNextWord := by
  intro l ld lqv s n c words res p w ln state mode active slot inSpan held shown
  have word := wordAt_eq inSpan held
  refine ⟨fun before => ?_, fun k last running reps => ?_, fun last running reps notLoaded => ?_⟩
  · exact State.beat_within state mode active slot word before
  · rw [State.beat_atLast state mode active slot word last rfl]
    have going : ¬ (s.lane l).stopPending = true := by rw [show (s.lane l).stopPending = false from running]; decide
    simp only [going, reps, Nat.lt_add_left_iff_pos, Nat.succ_pos, if_true, State.worked_mapLane,
      Lane.shown_setSlot]
    rfl
  · rw [State.beat_atLast state mode active slot word last rfl]
    have going : ¬ (s.lane l).stopPending = true := by rw [show (s.lane l).stopPending = false from running]; decide
    have closed : ((s.lane l).slot n.other).isLoaded = false := notLoaded
    simp only [going, reps, if_false, State.endContinuous, State.worked_lane, Lane.shown_slot_other, closed,
      Bool.false_eq_true, State.worked_mapLane, Lane.shown_setSlot]
    rfl

end Sys2Proof.Machine
end

section
/-! SUPPORT and the obligations of the PLAY LANE AT A SPAN END: start and resumption, the switch, the ends of a play cue, the
stall policies, and the stall beats (R34, R37 to R42, R67 to R77, R88, R90). -/

namespace Sys2Proof.Machine

open Sys2Proof

/-! ## Becoming RUNNING (R34, R41, R70, R73) -/

theorem Lane.activate_loaded {ln : Lane} {n : SlotName} {c : HeldCue} {words : List Byte} {res : Resolution}
    (slot : ln.slot n = .loaded c words res) :
    ln.activate n =
      { ln.setSlot n (.playing c words res (Progress.atTap c.record)) with lastCue := some c.record.id } := by
  simp only [Lane.activate, slot]

theorem Lane.activate_assigned {ln : Lane} {n : SlotName} {c : HeldCue} (slot : ln.slot n = .assigned c) :
    ln.activate n =
      { ln.setSlot n (.capturing c [] (Progress.atTap c.record)) with lastCue := some c.record.id } := by
  simp only [Lane.activate, slot]

theorem Slot.progress_of_loaded {x : Slot} (h : x.isLoaded = true) : x.progress? = none := by
  cases x <;> simp [Slot.isLoaded, Slot.progress?] at h ⊢

/-- A slot that is ACTIVE while the other is not. -/
theorem Lane.activeSlot_of_other {ln : Lane} {n : SlotName} (active : (ln.slot n).progress?.isSome = true)
    (other : (ln.slot n.other).progress? = none) : ln.activeSlot = some n := by
  cases n with
  | a => exact if_pos active
  | b =>
    have notA : ¬ ln.slotA.progress?.isSome = true := by
      rw [show ln.slotA.progress? = none from other]
      decide
    exact (if_neg notA).trans (if_pos active)

/-- No slot of a lane without an active slot is ACTIVE. -/
theorem Lane.progress_none {ln : Lane} (inactive : ln.activeSlot = none) (n : SlotName) : (ln.slot n).progress? = none := by
  obtain ⟨a, b⟩ := (Lane.activeSlot_eq_none ln).mp inactive
  cases n
  · exact a
  · exact b

section

variable {s : State} {l : LaneId} {ld : Byte} {lqv : Bool} {n : SlotName}

theorem State.beat_ready_first (state : (s.lane l).state = .ready) (group : (s.lane l).config.group = none)
    (first : (s.lane l).oldestSlot = some n) :
    s.beat l ld lqv = (s.mapLane l (Lane.run n)).runningBeat l ld lqv := by
  rw [State.beat_ready state, State.readyBeat, group, first]

theorem State.stalledPlayBeat_resumes {cause : StallCause} (resume : (s.lane l).resumeSlot cause = some n) :
    s.stalledPlayBeat l cause = (s.mapLane l (Lane.run n)).playBeat l := by
  simp only [State.stalledPlayBeat, resume]

theorem State.stalledPlayBeat_waits {cause : StallCause} (waits : (s.lane l).resumeSlot cause = none) :
    s.stalledPlayBeat l cause = if cause = .underrun then s.mapLane l Lane.countStallBeat else s := by
  simp only [State.stalledPlayBeat, waits]

end

/-- Outside SKIP and in DRY the lane waits for its oldest slot cue (R41, R70). -/
theorem Lane.resumeSlot_oldest {ln : Lane} {cause : StallCause} {n : SlotName}
    (policy : ¬ (ln.config.stall = .skip ∧ cause = .underrun)) (oldest : ln.oldestSlot = some n) :
    ln.resumeSlot cause = if (ln.slot n).isLoaded then some n else none := by
  rw [Lane.resumeSlot, if_neg policy, oldest, Option.filter_some]

/-- Settles O28: the lane that the beat makes RUNNING is the one that the statement writes out. -/
theorem startAndResumeTakeTheBeat : Obligations.StartAndResumeTakeTheBeat := by
  refine ⟨?_, ?_⟩
  · intro l ld lqv s n c words res ln running mode slot inactive start
    have run : (s.lane l).run n = running := by
      rw [Lane.run, Lane.activate_loaded slot]
      rfl
    have acts : (s.setLane l running).beat l ld lqv = (s.mapLane l (Lane.run n)).playBeat l := by
      have isRunning : ((s.setLane l running).lane l).state = .running := by rw [State.lane_setLane_same]
      have isPlay : ((s.setLane l running).lane l).config.mode = .play := by
        rw [State.lane_setLane_same, ← run, Lane.run]
        exact (congrArg LaneConfig.mode (Lane.activate_config _ _)).trans mode
      rw [State.beat_running isRunning, State.runningBeat, isPlay, State.mapLane_eq, run]
    have loaded : ((s.lane l).slot n).isLoaded = true := by rw [show (s.lane l).slot n = _ from slot]; rfl
    rw [acts]
    rcases start with ⟨ready, group, first⟩ | ⟨dry, first⟩ | ⟨underrun, policy, first⟩ | ⟨underrun, policy, first⟩
    · have isPlay : ((s.mapLane l (Lane.run n)).lane l).config.mode = .play := by
        rw [State.lane_mapLane_same, Lane.run]
        exact (congrArg LaneConfig.mode (Lane.activate_config _ _)).trans mode
      rw [State.beat_ready_first ready group first, State.runningBeat, isPlay]
    · rw [State.beat_stalled_play dry mode]
      refine State.stalledPlayBeat_resumes ?_
      rw [Lane.resumeSlot_oldest (by simp) first, if_pos loaded]
    · rw [State.beat_stalled_play underrun mode]
      refine State.stalledPlayBeat_resumes ?_
      rw [Lane.resumeSlot_oldest (fun both => policy both.1) first, if_pos loaded]
    · rw [State.beat_stalled_play underrun mode]
      refine State.stalledPlayBeat_resumes ?_
      rw [Lane.resumeSlot, if_pos ⟨policy, rfl⟩]
      exact first
  · intro l ld lqv s n c ln state mode group first slot inactive running
    have run : (s.lane l).run n = running := by
      rw [Lane.run, Lane.activate_assigned slot]
      rfl
    have isRunning : ((s.setLane l running).lane l).state = .running := by rw [State.lane_setLane_same]
    refine ⟨?_, ?_⟩
    · rw [State.beat_ready_first state group first, State.beat_running isRunning, State.mapLane_eq, run]
    · have other : running.slot n.other = (s.lane l).slot n.other := by cases n <;> rfl
      have own : running.slot n = .capturing c [] (Progress.atTap c.record) := by cases n <;> rfl
      exact Lane.activeSlot_of_other (by rw [own]; rfl) (by rw [other]; exact Lane.progress_none inactive n.other)

/-! ## The ends of a play cue (R39, R40) -/

section

variable {s : State} {l : LaneId} {x : Lane} {ns : List Notice} {n : SlotName} {c : HeldCue}

theorem State.worked_finishCue :
    (s.worked l x ns).finishCue l n c = s.worked l (x.setSlot n .empty) (ns ++ cueEndOf l c .played) := by
  rw [State.finishCue, State.worked_mapLane, State.worked_retire]

theorem State.worked_switchTo :
    (s.worked l x ns).switchTo l n = s.worked l ((x.activate n).stage s.event) ns := by
  rw [State.switchTo, State.worked_mapLane, State.worked_event]

/-- The span end of a play cue behind work on its lane (Table 2-7). -/
theorem State.worked_spanEnd {u : State}
    (finished : s.worked l (x.setSlot n .empty) (ns ++ cueEndOf l c .played) = u) :
    (s.worked l x ns).spanEnd l n c =
      if c.record.haltAfter then u.halt l .ended
      else if (x.slot n.other).isLoaded then u.switchTo l n.other
      else if (x.slot n.other).isAwaited || ((x.slot n.other).isEmpty && !x.queue.isEmpty) then u.underrun l n c
      else u.actDry l c.record.id := by
  have lane : u.lane l = x.setSlot n .empty := by rw [← finished, State.worked_lane]
  rw [State.spanEnd, State.worked_finishCue, finished]
  simp only [lane, Lane.slot_setSlot_other, Lane.setSlot_queue]

/-- The end of a repetition of a CONTINUOUS cue whose successor is LOADED (R40). -/
theorem State.worked_endContinuous {restart : Slot} {u : State}
    (finished : s.worked l (x.setSlot n .empty) (ns ++ cueEndOf l c .played) = u)
    (loaded : (x.slot n.other).isLoaded = true) :
    (s.worked l x ns).endContinuous l n c restart =
      if c.record.haltAfter then u.halt l .ended else u.switchTo l n.other := by
  rw [State.endContinuous, State.worked_lane, if_pos loaded, State.worked_finishCue, finished]

end

/-- Settles O29: the beat shows the last word, finishes the cue and makes the other slot ACTIVE. -/
theorem spanEndRetiresAndSwitches : Obligations.SpanEndRetiresAndSwitches := by
  intro l ld lqv s n c next words nextWords res nextRes p w ln state mode active slot inSpan held last running reps going
    otherSlot switched
  have word := wordAt_eq inSpan held
  have notStopping : ¬ (s.lane l).stopPending = true := by rw [show (s.lane l).stopPending = false from running]; decide
  have loaded : ((s.lane l).slot n.other).isLoaded = true := by
    rw [show (s.lane l).slot n.other = _ from otherSlot]
    rfl
  have finish : ∀ y : Slot,
      (s.worked l ((((s.lane l).shown n w (!p.begun && c.record.mark) y).setSlot n .empty))
        (cueStartOf l c.record p.begun (some res.row) res.generation ++ cueEndOf l c .played)).switchTo l n.other =
      (s.setLane l (switched.stage s.event)).offerAll
        (cueStartOf l c.record p.begun (some res.row) res.generation ++ cueEndOf l c .played) := by
    intro y
    have moved : ((((s.lane l).shown n w (!p.begun && c.record.mark) y).setSlot n .empty)).activate n.other = switched := by
      rw [Lane.activate_loaded (c := next) (words := nextWords) (res := nextRes)
        (by rw [Lane.slot_setSlot_other, Lane.shown_slot_other]; exact otherSlot)]
      cases n <;> rfl
    rw [State.worked_switchTo, moved]
    rfl
  rw [State.beat_atLast state mode active slot word last rfl, if_neg notStopping]
  rcases reps with count | continuous
  · simp only [count, Nat.lt_irrefl, if_false]
    rw [State.worked_spanEnd rfl, going, Lane.shown_slot_other, loaded]
    exact finish _
  · simp only [continuous]
    rw [State.worked_endContinuous rfl (by rw [Lane.shown_slot_other]; exact loaded), going]
    exact finish _

/-! ## Halts of a play lane with one slot known -/

/-- A slot whose cue is not returned leaves the other's. -/
theorem Lane.returned_of_none {ln : Lane} {n : SlotName} (none : (ln.slot n).returned? = none) :
    ln.returned = (ln.slot n.other).returned?.toList := by
  cases n with
  | a =>
    simp only [Lane.returned, show ln.slotA.returned? = Option.none from none, SlotName.other, Lane.slot]
    cases ln.slotB.returned? <;> rfl
  | b =>
    simp only [Lane.returned, show ln.slotB.returned? = Option.none from none, SlotName.other, Lane.slot]
    cases ln.slotA.returned? <;> rfl

/-- A halt, slot by slot. -/
theorem Lane.stopIn_eq (ln : Lane) (n : SlotName) (st : LaneState) (age : Nat) :
    ln.stopIn st age =
      { (ln.setSlot n ((ln.slot n).afterHalt age)).setSlot n.other ((ln.slot n.other).afterHalt age) with
        state := st, queue := ln.returned ++ ln.queue, stopPending := false, awaitingFirstBeat := false
        pins := ln.quietPins } := by
  cases n <;> rfl

theorem Lane.halted_play {ln : Lane} (age : Nat) (reason : HaltReason) (canHalt : ln.state.canHalt = true)
    (mode : ln.config.mode = .play) : ln.halted age reason = ln.stopIn (.halted reason) age := by
  simp only [Lane.halted, canHalt, if_true, mode]

/-- The CUE END of the begun cue that a play halt ends (R81). -/
def Lane.cutTold (l : LaneId) (ln : Lane) : List Notice :=
  match ln.halted? with
  | some (c, o) => cueEndOf l c o
  | none => []

theorem Lane.haltTold_play {ln : Lane} (l : LaneId) (age : Nat) (reason : HaltReason) (canHalt : ln.state.canHalt = true)
    (mode : ln.config.mode = .play) :
    ln.haltTold l age reason =
      ln.cutTold l ++ [.laneHalted l reason ln.lastCue (ln.returned.map fun c => c.record.id)] := by
  simp only [Lane.haltTold, canHalt, if_true, mode] <;> rfl

theorem Lane.cutTold_inactive {ln : Lane} (l : LaneId) (inactive : ln.activeSlot = none) : ln.cutTold l = [] := by
  simp only [Lane.cutTold, Lane.halted?, inactive]

theorem Lane.cutTold_active {ln : Lane} (l : LaneId) {n : SlotName} {c : HeldCue} {o : CueOutcome}
    (active : ln.activeSlot = some n) (ended : (ln.slot n).halted? = some (c, o)) : ln.cutTold l = cueEndOf l c o := by
  simp only [Lane.cutTold, Lane.halted?, active, ended]

/-- The slot whose word is shown stays the active one. -/
theorem Lane.shown_activeSlot {ln : Lane} {n : SlotName} {w : Byte} {mark : Bool} {x : Slot}
    (active : ln.activeSlot = some n) (progress : x.progress?.isSome = true) :
    (ln.shown n w mark x).activeSlot = some n := by
  cases n with
  | a => exact if_pos progress
  | b =>
    have notA : ¬ ln.slotA.progress?.isSome = true := by
      intro isA
      cases (if_pos isA).symm.trans active
    exact (if_neg notA).trans (if_pos progress)

/-- Once its cue has gone no slot of the lane is ACTIVE. -/
theorem Lane.shown_inactive {ln : Lane} {n : SlotName} {w : Byte} {mark : Bool} {x : Slot} (gone : x.progress? = none)
    (other : (ln.slot n.other).progress? = none) : (ln.shown n w mark x).activeSlot = none :=
  Lane.activeSlot_eq_none_of_slots n (by rw [Lane.shown_slot]; exact gone) (by rw [Lane.shown_slot_other]; exact other)

/-- A lane that shows a word of slot `n` halts: the slot of the cue that was shown becomes EMPTY. -/
theorem Lane.shown_stopIn {ln : Lane} {n : SlotName} {w : Byte} {mark : Bool} {x : Slot} (st : LaneState) (age : Nat)
    (mode : ln.config.mode = .play) (gone : x.afterHalt age = .empty) (begun : x.returned? = none) :
    (ln.shown n w mark x).stopIn st age =
      { ({ ln.setSlot n .empty with
            state := st, lastWord := w, awaitingFirstBeat := false
            pins := { ld := some ln.config.idleWord, lqv := some false, lmk := false } } : Lane).setSlot n.other
          ((ln.slot n.other).afterHalt age) with
        queue := (ln.slot n.other).returned?.toList ++ ln.queue, stopPending := false } := by
  have quiet : (ln.shown n w mark x).quietPins = { ld := some ln.config.idleWord, lqv := some false, lmk := false } := by
    rw [Lane.quietPins_play (by rw [Lane.shown_config]; exact mode), Lane.shown_config]
  rw [Lane.stopIn_eq _ n, quiet, Lane.returned_of_none (n := n) (by rw [Lane.shown_slot]; exact begun),
    Lane.shown_slot, Lane.shown_slot_other, Lane.shown_setSlot, gone, Lane.shown_queue]
  cases n <;> rfl

/-- The halt of a play lane that shows a word, its own slot being `x`: the other slot alone returns its cue. -/
theorem State.shown_halt {s : State} {l : LaneId} {n : SlotName} {w : Byte} {mark : Bool} {x : Slot} {o : List Notice}
    (ns : List Notice) (reason : HaltReason) (canHalt : (s.lane l).state.canHalt = true)
    (mode : (s.lane l).config.mode = .play) (gone : x.afterHalt s.event = .empty) (begun : x.returned? = none)
    (cut : ((s.lane l).shown n w mark x).cutTold l = o) :
    (s.worked l ((s.lane l).shown n w mark x) ns).halt l reason =
      (s.worked l
        { ({ (s.lane l).setSlot n .empty with
              state := .halted reason, lastWord := w, awaitingFirstBeat := false
              pins := { ld := some (s.lane l).config.idleWord, lqv := some false, lmk := false } } : Lane).setSlot n.other
            (((s.lane l).slot n.other).afterHalt s.event) with
          queue := ((s.lane l).slot n.other).returned?.toList ++ (s.lane l).queue, stopPending := false }
        (ns ++ (o ++ [.laneHalted l reason (s.lane l).lastCue
          (((s.lane l).slot n.other).returned?.toList.map fun c => c.record.id)]))).together l (s.cascades l reason) := by
  have lane := Lane.shown_stopIn (n := n) (w := w) (mark := mark) (.halted reason) s.event mode gone begun
  have ids := Lane.returned_of_none (ln := (s.lane l).shown n w mark x) (n := n) (by rw [Lane.shown_slot]; exact begun)
  rw [State.worked_halt ns (by rw [Lane.shown_config]) (by rw [Lane.shown_state]),
    Lane.halted_play _ _ (by rw [Lane.shown_state]; exact canHalt) (by rw [Lane.shown_config]; exact mode), lane,
    Lane.haltTold_play _ _ _ (by rw [Lane.shown_state]; exact canHalt) (by rw [Lane.shown_config]; exact mode), cut,
    ids, Lane.shown_slot_other, Lane.shown_lastCue]

/-- A lane with the queue and the flag that it has. -/
theorem Lane.with_same {x : Lane} {q : List HeldCue} {stopping : Bool} (queue : x.queue = q)
    (flag : x.stopPending = stopping) : { x with queue := q, stopPending := stopping } = x := by
  subst queue flag
  rfl

/-- A lane that shows a word goes quiet. -/
theorem Lane.shown_quiet {ln : Lane} {n : SlotName} {w : Byte} {mark : Bool} {x : Slot} (st : LaneState)
    (mode : ln.config.mode = .play) :
    { (ln.shown n w mark x).quiet with state := st } =
      { ln.setSlot n x with
        state := st, lastWord := w, awaitingFirstBeat := false
        pins := { ld := some ln.config.idleWord, lqv := some false, lmk := false } } := by
  rw [Lane.quiet, Lane.quietPins_play (by rw [Lane.shown_config]; exact mode), Lane.shown_config]
  cases n <;> rfl

/-- WAIT stalls the lane with cause DRY (R41). -/
theorem State.actDry_wait {s : State} {l : LaneId} {id : Byte} (dry : (s.lane l).config.dry = .wait) :
    s.actDry l id = s.stallDry l id := by
  simp only [State.actDry, dry]

/-- STOP halts it with reason END (R41). -/
theorem State.actDry_stop {s : State} {l : LaneId} {id : Byte} (dry : (s.lane l).config.dry = .stop) :
    s.actDry l id = s.halt l .ended := by
  simp only [State.actDry, dry]

/-- Settles O30: each end halts or stalls the lane that shows the last word. -/
theorem playLaneRunsDry : Obligations.PlayLaneRunsDry := by
  intro l ld lqv s n c words res p w ln state mode active slot inSpan held last other idlePins after halted told returned
    outcome
  have word := wordAt_eq inSpan held
  have canHalt : (s.lane l).state.canHalt = true := by rw [show (s.lane l).state = .running from state]; rfl
  have going : ∀ u v : State, (s.lane l).stopPending = false → (if (s.lane l).stopPending then u else v) = v := by
    intro u v running
    rw [running]
    rfl
  have halts : ∀ (ns o : List Notice) (x : Slot) (reason : HaltReason), x.afterHalt s.event = .empty →
      x.returned? = none → ((s.lane l).shown n w (!p.begun && c.record.mark) x).cutTold l = o →
      (s.worked l ((s.lane l).shown n w (!p.begun && c.record.mark) x) ns).halt l reason =
        ((s.setLane l (halted reason)).offerAll ((ns ++ o) ++ [.laneHalted l reason ln.lastCue returned])).together l
          (s.cascades l reason) := by
    intro ns o x reason gone begun cut
    rw [State.shown_halt ns reason canHalt mode gone begun cut, ← List.append_assoc]
    rfl
  /- the halt with reason END of a lane whose cue is finished -/
  have ends : (other.progress? = none) →
      (s.worked l ((s.lane l).shown n w (!p.begun && c.record.mark) .empty) (told .played)).halt l .ended =
        ((s.setLane l (halted .ended)).offerAll (told .played ++ [.laneHalted l .ended ln.lastCue returned])).together l
          (s.cascades l .ended) := by
    intro otherIdle
    rw [halts _ [] _ _ rfl rfl (Lane.cutTold_inactive l (Lane.shown_inactive rfl otherIdle)), List.append_nil]
  refine ⟨fun stopping => ?_, fun running haltAfter reps => ?_, fun running reps goesOn empty noCue => ?_⟩
  · rw [State.beat_atLast state mode active slot word last rfl, if_pos stopping]
    refine halts _ (cueEndOf l c outcome) _ .request rfl rfl ?_
    refine Lane.cutTold_active l (Lane.shown_activeSlot active rfl) ?_
    rw [Lane.shown_slot]
    simp only [Slot.halted?, if_true, outcome]
    cases p.repsLeft with
    | count k => by_cases final : k ≤ 1 <;> simp [Reps.isFinal, final]
    | continuous => rfl
  · rw [State.beat_atLast state mode active slot word last rfl, going _ _ running]
    rcases reps with ⟨count, idle⟩ | ⟨continuous, loaded⟩
    · simp only [count, Nat.lt_irrefl, if_false]
      rw [State.worked_spanEnd rfl, if_pos haltAfter, Lane.shown_setSlot]
      exact ends idle
    · have idle : other.progress? = none := Slot.progress_of_loaded loaded
      simp only [continuous]
      rw [State.worked_endContinuous rfl (by rw [Lane.shown_slot_other]; exact loaded), if_pos haltAfter,
        Lane.shown_setSlot]
      exact ends idle
  · have emptyOther : (s.lane l).slot n.other = .empty := empty
    have queue : (s.lane l).queue = [] := noCue
    have dryBeat : s.beat l ld lqv =
        (s.worked l ((s.lane l).shown n w (!p.begun && c.record.mark) .empty) (told .played)).actDry l c.record.id := by
      rw [State.beat_atLast state mode active slot word last rfl, going _ _ running]
      simp only [reps, Nat.lt_irrefl, if_false]
      rw [State.worked_spanEnd rfl, goesOn, Lane.shown_slot_other, emptyOther, Lane.shown_queue, queue, Lane.shown_setSlot]
      rfl
    refine ⟨fun dry => ?_, fun dry => ?_⟩ <;> rw [dryBeat]
    · rw [State.actDry_wait (by rw [State.worked_lane, Lane.shown_config]; exact dry), State.worked_stallDry,
        Lane.shown_quiet _ mode]
      rfl
    · have same : (after (.halted .ended)).setSlot n.other (other.afterHalt s.event) = after (.halted .ended) := by
        have slot' : (after (.halted .ended)).slot n.other = other := by cases n <;> rfl
        rw [show other.afterHalt s.event = other from by rw [empty]; rfl, ← slot', Lane.setSlot_slot]
      have lane : halted .ended = after (.halted .ended) := by
        change { (after (.halted .ended)).setSlot n.other (other.afterHalt s.event) with
          queue := other.returned?.toList ++ (s.lane l).queue, stopPending := false } = _
        rw [same, empty]
        refine Lane.with_same ?_ ?_
        · cases n <;> rfl
        · cases n <;> exact running
      have told' : returned = [] := by
        change other.returned?.toList.map _ = []
        rw [empty]
        rfl
      rw [State.actDry_stop (by rw [State.worked_lane, Lane.shown_config]; exact dry), ends (by rw [empty]; rfl), lane,
        told']

/-! ## Underruns (R67 to R77) -/

theorem Slot.afterHalt_of_cue_none {x : Slot} (age : Nat) (h : x.cue? = none) : x.afterHalt age = x := by
  cases x <;> simp [Slot.cue?, Slot.afterHalt] at h ⊢

theorem Slot.returned_of_cue_none {x : Slot} (h : x.cue? = none) : x.returned? = none := by
  cases x <;> simp [Slot.cue?, Slot.returned?] at h ⊢

theorem Slot.progress_of_cue_none {x : Slot} (h : x.cue? = none) : x.progress? = none := by
  cases x <;> simp [Slot.cue?, Slot.progress?] at h ⊢

theorem Lane.held_eq_nil (ln : Lane) :
    ln.held = [] ↔ ln.slotA.cue? = none ∧ ln.slotB.cue? = none ∧ ln.queue = [] := by
  simp only [Lane.held, Lane.slotCues, List.append_eq_nil_iff, and_assoc]
  cases ln.slotA.cue? <;> cases ln.slotB.cue? <;> simp

/-- A lane that holds no cue has none ACTIVE and none to return. -/
theorem Lane.of_held_nil {ln : Lane} (none : ln.held = []) : ln.activeSlot = Option.none ∧ ln.returned = [] := by
  obtain ⟨a, b, _⟩ := ln.held_eq_nil.mp none
  refine ⟨(Lane.activeSlot_eq_none ln).mpr ⟨Slot.progress_of_cue_none a, Slot.progress_of_cue_none b⟩, ?_⟩
  rw [Lane.returned_of_none (n := .a) (Slot.returned_of_cue_none a)]
  exact congrArg Option.toList (Slot.returned_of_cue_none b)

/-- The halt of a lane that holds no cue leaves its slots and its queue. -/
theorem Lane.stopIn_of_held_nil {ln : Lane} (st : LaneState) (age : Nat) (none : ln.held = []) :
    ln.stopIn st age =
      { ln with state := st, stopPending := false, awaitingFirstBeat := false, pins := ln.quietPins } := by
  obtain ⟨a, b, _⟩ := ln.held_eq_nil.mp none
  rw [Lane.stopIn, (Lane.of_held_nil none).2, Slot.afterHalt_of_cue_none age a, Slot.afterHalt_of_cue_none age b,
    List.nil_append]

theorem Lane.with_flags {ln : Lane} (st : LaneState) (p : Pins) (stopping : ln.stopPending = false)
    (awaiting : ln.awaitingFirstBeat = false) :
    { ln with state := st, stopPending := false, awaitingFirstBeat := false, pins := p } =
      { ln with state := st, pins := p } := by
  cases ln
  subst stopping awaiting
  rfl

section

variable {s : State} {l : LaneId} {x : Lane} {ns : List Notice} {n : SlotName} {c : HeldCue} {ended retired : Byte}

theorem State.worked_reportUnderrun_holds (holds : x.held ≠ []) :
    (s.worked l x ns).reportUnderrun l ended retired = (s.worked l x ns).oweStall l ended .underrun := by
  rw [State.reportUnderrun, State.worked_lane]
  exact if_neg fun none => holds (List.length_eq_zero_iff.mp none)

theorem State.worked_reportUnderrun_none (none : x.held = []) :
    (s.worked l x ns).reportUnderrun l ended retired = (s.worked l x ns).actDry l retired := by
  rw [State.reportUnderrun, State.worked_lane]
  exact if_pos (List.length_eq_zero_iff.mpr none)

/-- The dry policy STOP of a play lane that holds no cue. -/
theorem State.worked_actDry_stop (dry : x.config.dry = .stop) (mode : x.config.mode = .play)
    (group : x.config.group = (s.lane l).config.group) (running : (s.lane l).state.canHalt = true)
    (canHalt : x.state.canHalt = true) (none : x.held = []) :
    (s.worked l x ns).actDry l retired =
      (s.worked l
        { x with
          state := .halted .ended, stopPending := false, awaitingFirstBeat := false
          pins := { ld := some x.config.idleWord, lqv := some false, lmk := false } }
        (ns ++ [.laneHalted l .ended x.lastCue []])).together l (s.cascades l .ended) := by
  obtain ⟨inactive, noReturn⟩ := Lane.of_held_nil none
  rw [State.actDry_stop (by rw [State.worked_lane]; exact dry), State.worked_halt ns group (by rw [canHalt, running]),
    Lane.halted_play _ _ canHalt mode, Lane.haltTold_play _ _ _ canHalt mode, Lane.cutTold_inactive l inactive, noReturn,
    Lane.stopIn_of_held_nil _ _ none, Lane.quietPins_play mode]
  rfl

/-- What an underrun tells of the lane `x` that it has left stalled: its own LANE STALL, or, where no cue is held, what the dry
policy does in its place (R68, R77). -/
theorem State.worked_underrunTold (config : x.config = (s.lane l).config) (mode : (s.lane l).config.mode = .play)
    (state : (s.lane l).state = .running) (stalled : x.state = .stalled .underrun) (stopping : x.stopPending = false)
    (awaiting : x.awaitingFirstBeat = false) (lastCue : x.lastCue = (s.lane l).lastCue) {idlePins : Pins}
    (idle : idlePins = { ld := some (s.lane l).config.idleWord, lqv := some false, lmk := false }) :
    (x.held ≠ [] → (s.worked l x ns).reportUnderrun l ended retired = (s.worked l x ns).oweStall l ended .underrun) ∧
    (x.held = [] → (s.lane l).config.dry = .wait → (s.worked l x ns).reportUnderrun l ended retired =
      (s.worked l { x with state := .stalled .dry, pins := idlePins } ns).oweStall l retired .dry) ∧
    (x.held = [] → (s.lane l).config.dry = .stop → (s.worked l x ns).reportUnderrun l ended retired =
      (s.worked l { x with state := .halted .ended, pins := idlePins }
        (ns ++ [.laneHalted l .ended (s.lane l).lastCue []])).together l (s.cascades l .ended)) := by
  subst idle
  refine ⟨State.worked_reportUnderrun_holds, fun none dry => ?_, fun none dry => ?_⟩
  · rw [State.worked_reportUnderrun_none none, State.actDry_wait (by rw [State.worked_lane, config]; exact dry),
      State.worked_stallDry, Lane.quiet, Lane.quietPins_play (by rw [config]; exact mode), config]
  · rw [State.worked_reportUnderrun_none none,
      State.worked_actDry_stop (by rw [config]; exact dry) (by rw [config]; exact mode) (by rw [config])
        (by rw [state]; rfl) (by rw [stalled]; rfl) none, Lane.with_flags _ _ stopping awaiting, config, lastCue]

theorem State.worked_underrunHold (hold : x.config.stall = .hold) :
    (s.worked l x ns).underrun l n c =
      (s.worked l ({ x.holdWord with state := .stalled .underrun }.stage s.event) ns).reportUnderrun
        l c.record.id c.record.id := by
  rw [State.underrun, State.worked_lane, hold]
  dsimp only
  rw [State.underrunHold, State.worked_mapLane, State.worked_event]

theorem State.worked_underrunSkip_none (skip : x.config.stall = .skip) (late : (x.slot n.other).late? = none) :
    (s.worked l x ns).underrun l n c =
      (s.worked l (x.skipStall s.event) ns).reportUnderrun l c.record.id c.record.id := by
  rw [State.underrun, State.worked_lane, skip]
  dsimp only
  rw [State.underrunSkip, State.worked_lane, late]
  dsimp only
  rw [State.worked_mapLane, State.worked_event]

theorem State.worked_underrunSkip_late {y : HeldCue} (skip : x.config.stall = .skip)
    (late : (x.slot n.other).late? = some y) :
    (s.worked l x ns).underrun l n c =
      (s.worked l (((x.setSlot n.other ((x.slot n.other).afterHalt s.event)).countLateCue).skipStall s.event)
        (ns ++ cueEndOf l y .late)).reportUnderrun l c.record.id y.record.id := by
  rw [State.underrun, State.worked_lane, skip]
  dsimp only
  rw [State.underrunSkip, State.worked_lane, late]
  dsimp only
  rw [State.giveUpLate, State.worked_mapLane, State.worked_event, State.worked_retire, State.worked_mapLane]

theorem State.worked_underrunHalt (halt : x.config.stall = .halt) :
    (s.worked l x ns).underrun l n c = (s.worked l x ns).halt l .underrun := by
  rw [State.underrun, State.worked_lane, halt]

end

/-- The other slot at an underrun: it is not LOADED, its cue is late or it has none, and a late cue is the one it returns. -/
theorem Slot.underrun_other {other : Slot} {q : List HeldCue}
    (awaited : (∃ x age, other = .staged x age) ∨ (∃ x, other = .loading x) ∨ other = .discarding ∨
      (other = .empty ∧ q ≠ [])) :
    other.isLoaded = false ∧ (other.isAwaited || (other.isEmpty && !q.isEmpty)) = true ∧ other.returned? = other.late? ∧
      other.progress? = none := by
  rcases awaited with ⟨x, age, rfl⟩ | ⟨x, rfl⟩ | rfl | ⟨rfl, waiting⟩
  · exact ⟨rfl, rfl, rfl, rfl⟩
  · exact ⟨rfl, rfl, rfl, rfl⟩
  · exact ⟨rfl, rfl, rfl, rfl⟩
  · refine ⟨rfl, ?_, rfl, rfl⟩
    cases q with
    | nil => exact absurd rfl waiting
    | cons c q => rfl

/-- Settles O31: the span end runs into the underrun, and the stall policy says with which lane and notices it is told. -/
theorem stallPolicyActsAtUnderrun : Obligations.StallPolicyActsAtUnderrun := by
  refine ⟨?_, fun u l id cause => rfl, fun u => rfl⟩
  intro l ld lqv s n c words res p w ln other state mode active slot inSpan held last running reps goesOn awaited idlePins
    base first late stalled
  obtain ⟨notLoaded, underruns, returned, notActive⟩ := Slot.underrun_other awaited
  have lateCue : other.late? = late := by
    simp only [late]
    cases other <;> rfl
  have going : (s.lane l).stopPending = false := running
  have beat : s.beat l ld lqv =
      (s.worked l ((s.lane l).shown n w (!p.begun && c.record.mark) .empty) first).underrun l n c := by
    rw [State.beat_atLast state mode active slot (wordAt_eq inSpan held) last rfl, if_neg (by rw [going]; decide)]
    simp only [reps, Nat.lt_irrefl, if_false]
    rw [State.worked_spanEnd rfl, goesOn, Lane.shown_slot_other, notLoaded, Lane.shown_queue, underruns, Lane.shown_setSlot]
    rfl
  have told : ∀ (y : Lane) (ns : List Notice) (retired : Byte), y.state = .stalled .underrun → y.config = (s.lane l).config →
      y.stopPending = false → y.awaitingFirstBeat = false → y.lastCue = (s.lane l).lastCue →
      s.beat l ld lqv = (s.worked l (y.stage s.event) ns).reportUnderrun l c.record.id retired →
      stalled (y.stage s.event) ns retired := by
    intro y ns retired isStalled config stopping awaiting lastCue acts
    obtain ⟨holds, wait, stop⟩ := State.worked_underrunTold (x := y.stage s.event) (ns := ns) (ended := c.record.id)
      (retired := retired) (idlePins := idlePins) (by rw [Lane.stage_config, config]) mode state
      (by rw [Lane.stage_state, isStalled]) (by rw [Lane.stage_stopPending, stopping])
      (by rw [Lane.stage_awaitingFirstBeat, awaiting]) (by rw [Lane.stage_lastCue, lastCue]) rfl
    exact ⟨fun some => acts.trans (holds some), fun none dry => acts.trans (wait none dry),
      fun none dry => acts.trans (stop none dry)⟩
  have policy : ((s.lane l).shown n w (!p.begun && c.record.mark) .empty).config = (s.lane l).config := Lane.shown_config ..
  have otherSlot : ((s.lane l).shown n w (!p.begun && c.record.mark) .empty).slot n.other = other := Lane.shown_slot_other ..
  refine ⟨fun hold => ?_, fun skip noLate => ?_, fun x skip isLate => ?_, fun halt => ?_⟩
  · refine told _ _ _ rfl ?_ ?_ rfl ?_ ?_
    · cases n <;> rfl
    · cases n <;> exact going
    · cases n <;> rfl
    · rw [beat, State.worked_underrunHold (by rw [policy]; exact hold)]
      rfl
  · refine told _ _ _ rfl ?_ ?_ rfl ?_ ?_
    · cases n <;> rfl
    · cases n <;> exact going
    · cases n <;> rfl
    · rw [beat, State.worked_underrunSkip_none (by rw [policy]; exact skip) (by rw [otherSlot, lateCue]; exact noLate),
        Lane.skipStall, Lane.shown_quiet _ mode]
  · refine told _ _ _ rfl ?_ ?_ ?_ ?_ ?_
    · cases n <;> rfl
    · cases n <;> exact going
    · cases n <;> rfl
    · cases n <;> rfl
    · rw [beat, State.worked_underrunSkip_late (by rw [policy]; exact skip) (by rw [otherSlot, lateCue]; exact isLate),
        otherSlot, Lane.skipStall, Lane.quiet, Lane.quietPins_play (by cases n <;> exact mode)]
      cases n <;> rfl
  · have canHalt : (s.lane l).state.canHalt = true := by rw [show (s.lane l).state = .running from state]; rfl
    rw [beat, State.worked_underrunHalt (by rw [policy]; exact halt),
      State.shown_halt first .underrun canHalt mode rfl rfl (Lane.cutTold_inactive l (Lane.shown_inactive rfl notActive)),
      List.nil_append, show ((s.lane l).slot n.other).returned? = late from returned.trans lateCue]
    refine congrArg (fun y : Lane => (State.worked s l y _).together l _) ?_
    refine Eq.trans ?_ (Lane.with_same (stopping := false) rfl ?_)
    · cases n <;> rfl
    · cases n <;> exact going

/-! ## Stall beats and dropped words (R20, R75, R96) -/

theorem Lane.mapCurrentCue_slot {ln : Lane} {n : SlotName} (f : HeldCue → HeldCue) (inactive : ln.activeSlot = none)
    (oldest : ln.oldestWhere Slot.canBecomeActive = some n) :
    ln.mapCurrentCue f = ln.setSlot n ((ln.slot n).mapCue f) := by
  simp only [Lane.mapCurrentCue, inactive, oldest]

theorem Lane.mapCurrentCue_queue {ln : Lane} {c : HeldCue} {qs : List HeldCue} (f : HeldCue → HeldCue)
    (inactive : ln.activeSlot = none) (no : ln.oldestWhere Slot.canBecomeActive = none) (queue : ln.queue = c :: qs) :
    ln.mapCurrentCue f = { ln with queue := f c :: qs } := by
  simp only [Lane.mapCurrentCue, inactive, no, queue]

theorem Lane.mapCurrentCue_none {ln : Lane} (f : HeldCue → HeldCue) (inactive : ln.activeSlot = none)
    (no : ln.oldestWhere Slot.canBecomeActive = none) (queue : ln.queue = []) : ln.mapCurrentCue f = ln := by
  simp only [Lane.mapCurrentCue, inactive, no, queue]

/-- A slot that waits on its commit is neither ACTIVE nor able to become so. -/
theorem Slot.of_owesCommit {x : Slot} (h : x.owesCommit = true) :
    x.progress? = none ∧ x.canBecomeActive = false ∧ x.isAssigned = false := by
  cases x <;> simp [Slot.owesCommit, Slot.progress?, Slot.canBecomeActive, Slot.isAssigned] at h ⊢

/-- Settles O32: the lane does not resume, and its current cue is the one that the statement names. -/
theorem stalledBeatsAreCounted : Obligations.StalledBeatsAreCounted := by
  intro l ld lqv s ln
  refine ⟨?_, fun state mode a b => ?_⟩
  · intro state mode waits inactive counted told
    have noResume : (s.lane l).resumeSlot .underrun = none := by
      rcases waits with ⟨a, b⟩ | ⟨hold, n, oldest, notLoaded⟩
      · exact Lane.resumeSlot_none .underrun a b
      · rw [Lane.resumeSlot_oldest (fun both => by rw [show (s.lane l).config.stall = .hold from hold] at both; cases both.1)
          oldest, notLoaded]
        rfl
    have beat : s.beat l ld lqv = s.setLane l (counted.mapCurrentCue told) := by
      rw [State.beat_stalled_play state mode, State.stalledPlayBeat_waits noResume]
      rfl
    refine ⟨fun n c oldest slot => ?_, fun n c age oldest slot => ?_, fun c qs no queue => ?_, fun no queue => ?_⟩ <;>
      rw [beat]
    · rw [Lane.mapCurrentCue_slot (ln := counted) told inactive oldest, show counted.slot n = _ from slot]
      rfl
    · rw [Lane.mapCurrentCue_slot (ln := counted) told inactive oldest, show counted.slot n = _ from slot]
      rfl
    · rw [Lane.mapCurrentCue_queue (ln := counted) told inactive no queue]
    · rw [Lane.mapCurrentCue_none (ln := counted) told inactive no queue]
  · obtain ⟨aIdle, aNot, _⟩ := Slot.of_owesCommit a
    obtain ⟨bIdle, bNot, _⟩ := Slot.of_owesCommit b
    have inactive : (s.lane l).activeSlot = none := (Lane.activeSlot_eq_none _).mpr ⟨aIdle, bIdle⟩
    have no : (s.lane l).oldestWhere Slot.canBecomeActive = none := by
      rw [Lane.oldestWhere_eq_none]
      intro n can
      cases n
      · exact absurd (aNot.symm.trans can) (by decide)
      · exact absurd (bNot.symm.trans can) (by decide)
    let counted : Lane := { s.lane l with droppedWords := satInc (s.lane l).droppedWords }
    have dropped : s.beat l ld true =
        s.setLane l (counted.mapCurrentCue fun c => { c with dropTally := satInc c.dropTally }) := by
      rw [State.beat_stalled_capture state mode]
      rfl
    refine ⟨?_, fun queue => ?_, fun c qs queue => ?_⟩
    · rw [State.beat_stalled_capture state mode]
      rfl
    · rw [dropped, Lane.mapCurrentCue_none (ln := counted) _ inactive no queue]
    · rw [dropped, Lane.mapCurrentCue_queue (ln := counted) _ inactive no queue]

end Sys2Proof.Machine
end

section
/-! SUPPORT and the obligations of the CAPTURE LANE: the capture beat and the capture span end (R88, R91 to R99). -/

namespace Sys2Proof.Machine

open Sys2Proof

/-! ## The capture beat (R91) -/

/-- The words of a capture cue stand without a gap up to the pointer, so the next one goes behind them. -/
theorem putWord_append {tap pointer w : Byte} {words : List Byte} (full : tap.toNat + words.length = pointer.toNat) :
    putWord tap words pointer w = words ++ [w] := by
  rw [putWord, List.take_of_length_le (by omega)]

/-- What a capture lane tells at the first word of a cue: the ROW, or the binding as it stands at this beat (R91). -/
def State.captureTold (s : State) (l : LaneId) (c : Cue) (begun : Bool) : List Notice :=
  match c.ref with
  | .row r => cueStartOf l c begun (some r) none
  | .aliased a => cueStartOf l c begun (s.aliasAt a).row (some (s.aliasAt a).generation)

section

variable {s : State} {l : LaneId} {x : Lane} {ns : List Notice} {n : SlotName} {c : HeldCue} {words : List Byte}

@[simp] theorem State.worked_aliasAt (a : AliasNo) : (s.worked l x ns).aliasAt a = s.aliasAt a := by
  rw [State.worked, State.offerAll_frame]
  rfl

theorem State.worked_captureStart (begun : Bool) :
    (if !begun && c.record.notifyStart then
      (s.worked l x ns).offer ((s.worked l x ns).captureStart l c.record) else s.worked l x ns) =
    s.worked l x (ns ++ s.captureTold l c.record begun) := by
  have start : (s.worked l x ns).captureStart l c.record = s.captureStart l c.record := by
    simp only [State.captureStart, State.worked_aliasAt]
  rw [start, State.worked_offer, State.captureTold, State.captureStart]
  cases c.record.ref <;> cases begun <;> cases notify : c.record.notifyStart <;> simp [cueStartOf, notify]

theorem State.worked_captureSpanEnd :
    (s.worked l x ns).captureSpanEnd l n c words =
      let y := x.setSlot n (.commitWait c words { first := c.record.tap, last := c.record.last } s.event)
      let t := s.worked l y ns
      if y.stopPending then t.halt l .request
      else if c.record.haltAfter then t.halt l .ended
      else if (y.slot n.other).isAssigned then t.mapLane l (Lane.activate n.other)
      else if (y.slot n.other).owesCommit then t.overrun l c
      else if !y.queue.isEmpty then t.mapLane l fun ln => (ln.stageHead s.event).activate n.other
      else t.actDry l c.record.id := by
  simp only [State.captureSpanEnd, State.worked_mapLane, State.worked_lane, State.worked_event]

/-- The lane that has taken a qualified word in slot `n`, that slot being `y` from then on. -/
def Lane.took (ln : Lane) (n : SlotName) (mark : Bool) (y : Slot) : Lane :=
  { ln.setSlot n y with awaitingFirstBeat := false, pins := { ln.pins with lmk := mark } }

theorem Lane.took_setSlot (ln : Lane) (mark : Bool) (y z : Slot) :
    (ln.took n mark y).setSlot n z = ln.took n mark z := by
  cases n <;> rfl

theorem Lane.took_queue (ln : Lane) (mark : Bool) (y : Slot) : (ln.took n mark y).queue = ln.queue := by
  cases n <;> rfl

variable {ld : Byte} {p : Progress}

theorem State.beat_capturing (state : (s.lane l).state = .running) (mode : (s.lane l).config.mode = .capture)
    (active : (s.lane l).activeSlot = some n) (slot : (s.lane l).slot n = .capturing c words p)
    (full : c.record.tap.toNat + words.length = p.pointer.toNat) :
    s.beat l ld true =
      if p.pointer.toNat < c.record.last.toNat then
        s.worked l ((s.lane l).took n (!p.begun && c.record.mark)
            (.capturing c (words ++ [ld]) { p with begun := true, pointer := p.pointer + 1 }))
          (s.captureTold l c.record p.begun)
      else
        (s.worked l ((s.lane l).took n (!p.begun && c.record.mark) (.capturing c (words ++ [ld]) { p with begun := true }))
          (s.captureTold l c.record p.begun)).captureSpanEnd l n c (words ++ [ld]) := by
  have taken : ∀ y, ({ (s.lane l).drivesMark false with awaitingFirstBeat := false }.drivesMark
      (!p.begun && c.record.mark)).setSlot n y = (s.lane l).took n (!p.begun && c.record.mark) y := by
    intro y
    cases n <;> rfl
  rw [State.beat_running state, State.runningBeat, mode]
  dsimp only
  rw [State.captureBeat, if_pos rfl, State.mapLane_worked s l]
  dsimp only
  rw [State.worked_lane, show ({ (s.lane l).drivesMark false with awaitingFirstBeat := false } : Lane).activeSlot = some n
    from active]
  dsimp only
  rw [show ({ (s.lane l).drivesMark false with awaitingFirstBeat := false } : Lane).slot n = .capturing c words p by
    cases n <;> exact slot]
  dsimp only
  rw [State.captureWord, putWord_append full, State.worked_mapLane, taken]
  dsimp only
  rw [State.worked_captureStart, List.nil_append, State.worked_mapLane, Lane.took_setSlot]

end

/-- Settles O33: the word goes behind the words taken before it. -/
theorem captureBeatTakesQualifiedWord : Obligations.CaptureBeatTakesQualifiedWord := by
  intro l ld s n c words p ln state mode active slot full
  refine ⟨?_, fun before => ?_⟩
  · rw [State.beat_running state, State.runningBeat, show (s.lane l).config.mode = .capture from mode]
    rfl
  · rw [State.beat_capturing state mode active slot full, if_pos before]
    rfl

/-! ## The capture span end (R92 to R99) -/

/-- The halt of a capture lane that owes a commit: it enters ENDING with its LANE HALTED kept back (R99). -/
theorem Lane.halted_owing {ln : Lane} (l : LaneId) (reason : HaltReason) (now : Nat) (canHalt : ln.state.canHalt = true)
    (mode : ln.config.mode = .capture)
    (owes : (ln.slotA.afterHalt now).owesCommit = true ∨ (ln.slotB.afterHalt now).owesCommit = true) :
    ln.halted now reason = ln.stopIn (.ending reason (ln.returned.map fun c => c.record.id)) now ∧
      ln.haltTold l now reason = [] := by
  rw [← Bool.or_eq_true] at owes
  exact ⟨by simp only [Lane.halted, canHalt, if_true, mode, owes], by simp only [Lane.haltTold, canHalt, if_true, mode, owes]⟩

/-- The slot of a span end owes its commit, so the lane waits in ENDING with its LANE HALTED kept back (R99). -/
theorem Lane.halted_committing {ln : Lane} (l : LaneId) (n : SlotName) {words : List Byte} {range : ColumnRange} {age : Nat}
    {c : HeldCue} (reason : HaltReason) (now : Nat) (canHalt : ln.state.canHalt = true) (mode : ln.config.mode = .capture)
    (slot : ln.slot n = .commitWait c words range age) :
    ln.halted now reason =
      { ln.setSlot n.other ((ln.slot n.other).afterHalt now) with
        state := .ending reason ((ln.slot n.other).returned?.toList.map fun x => x.record.id)
        queue := (ln.slot n.other).returned?.toList ++ ln.queue, stopPending := false, awaitingFirstBeat := false
        pins := { ld := none, lqv := none, lmk := false } } ∧
    ln.haltTold l now reason = [] := by
  have owes : (ln.slotA.afterHalt now).owesCommit = true ∨ (ln.slotB.afterHalt now).owesCommit = true := by
    cases n with
    | a => exact .inl (by rw [show ln.slotA = _ from slot]; rfl)
    | b => exact .inr (by rw [show ln.slotB = _ from slot]; rfl)
  have returned : ln.returned = (ln.slot n.other).returned?.toList :=
    Lane.returned_of_none (by rw [slot]; rfl)
  obtain ⟨lane, silent⟩ := Lane.halted_owing l reason now canHalt mode owes
  refine ⟨?_, silent⟩
  rw [lane, Lane.stopIn_eq ln n, returned, slot, Lane.quietPins_capture mode,
    show Slot.afterHalt now (.commitWait c words range age) = ln.slot n from slot.symm ▸ rfl, Lane.setSlot_slot]

/-- The head cue goes to the one slot that is EMPTY. -/
theorem Lane.emptySlot_other {ln : Lane} {n : SlotName} (empty : ln.slot n.other = .empty) (own : ln.slot n ≠ .empty) :
    ln.emptySlot = some n.other := by
  cases n with
  | a => exact Lane.emptySlot_b own empty
  | b => exact Lane.emptySlot_a empty

/-- Settles O34: the commit is placed, and the branch of Table 5-3 is the one of the other slot. -/
theorem captureSpanEndPlacesItsCommit : Obligations.CaptureSpanEndPlacesItsCommit := by
  intro l ld s n c words p ln state mode active slot full atLast other undriven committed told goesOn stalls halts active'
  have ofCommitted : (s.lane l).took n (!p.begun && c.record.mark)
      (.commitWait c (words ++ [ld]) { first := c.record.tap, last := c.record.last } s.event) = committed := rfl
  have otherSlot : committed.slot n.other = other := by cases n <;> rfl
  have ownSlot : committed.slot n =
      .commitWait c (words ++ [ld]) { first := c.record.tap, last := c.record.last } s.event := by cases n <;> rfl
  have config : committed.config = (s.lane l).config := by cases n <;> rfl
  have running : committed.state = .running := by cases n <;> exact state
  have beat : s.beat l ld true =
      if (s.lane l).stopPending then (s.worked l committed told).halt l .request
      else if c.record.haltAfter then (s.worked l committed told).halt l .ended
      else if other.isAssigned then s.worked l (committed.activate n.other) told
      else if other.owesCommit then (s.worked l committed told).overrun l c
      else if !(s.lane l).queue.isEmpty then s.worked l ((committed.stageHead s.event).activate n.other) told
      else (s.worked l committed told).actDry l c.record.id := by
    rw [State.beat_capturing state mode active slot full, if_neg (by rw [atLast]; exact Nat.lt_irrefl _),
      State.worked_captureSpanEnd, Lane.took_setSlot, ofCommitted]
    dsimp only
    rw [otherSlot, State.worked_mapLane, State.worked_mapLane]
    cases n <;> rfl
  have halted : ∀ reason, (s.worked l committed told).halt l reason = ((s.setLane l
        { committed.setSlot n.other (other.afterHalt s.event) with
          state := .ending reason (other.returned?.toList.map fun x => x.record.id)
          queue := other.returned?.toList ++ ln.queue, stopPending := false, pins := undriven }).offerAll told).together
      l (s.cascades l reason) := by
    intro reason
    obtain ⟨lane, silent⟩ := Lane.halted_committing (ln := committed) l n reason s.event (by rw [running]; rfl)
      (by rw [config]; exact mode) ownSlot
    rw [State.worked_halt _ (by rw [config]) (by rw [running, show (s.lane l).state = _ from state]), lane, silent,
      List.append_nil, otherSlot]
    cases n <;> rfl
  have quiet : ∀ st, ({ committed.quiet with state := st } : Lane) = { committed with state := st, pins := undriven } := by
    intro st
    rw [Lane.quiet, Lane.quietPins_capture (by rw [config]; exact mode)]
  refine ⟨fun stopping => ?_, fun going haltAfter => ?_, fun going goes => ⟨?_, ?_, ?_, ?_, ?_, ?_⟩⟩
  · exact (beat.trans (if_pos stopping)).trans (halted .request)
  · have notStopping : ¬ (s.lane l).stopPending = true := by rw [show (s.lane l).stopPending = false from going]; decide
    exact ((beat.trans (if_neg notStopping)).trans (if_pos haltAfter)).trans (halted .ended)
  all_goals
    have notStopping : ¬ (s.lane l).stopPending = true := by rw [show (s.lane l).stopPending = false from going]; decide
    rw [if_neg notStopping, if_neg (by rw [goes]; decide)] at beat
  · intro next assigned
    rw [if_pos (by rw [assigned]; rfl), Lane.activate_assigned (otherSlot.trans assigned)] at beat
    exact beat
  · intro owes drop
    rw [if_neg (by rw [(Slot.of_owesCommit owes).2.2]; decide), if_pos owes, State.overrun, State.worked_lane, config,
      show (s.lane l).config.stall = .drop from drop] at beat
    dsimp only at beat
    rw [State.worked_mapLane, quiet] at beat
    exact beat
  · intro owes halt
    rw [if_neg (by rw [(Slot.of_owesCommit owes).2.2]; decide), if_pos owes, State.overrun, State.worked_lane, config,
      show (s.lane l).config.stall = .halt from halt] at beat
    exact beat.trans (halted .overrun)
  · intro x rest empty queue
    have staged : committed.stageHead s.event = { committed.setSlot n.other (.assigned x) with queue := rest } := by
      rw [Lane.stageHead_moves (ln := committed) (c := x) (q := rest) s.event (by rw [running]; rfl) ((Lane.took_queue (s.lane l) ..).trans queue)
        (Lane.emptySlot_other (otherSlot.trans empty) (by rw [ownSlot]; intro h; cases h))]
      rw [Lane.stagedSlot, config, show (s.lane l).config.mode = .capture from mode]
    rw [empty, show (s.lane l).queue = x :: rest from queue] at beat
    refine beat.trans (congrArg (fun y => s.worked l y told) ?_)
    rw [staged, Lane.activate_assigned (c := x) (by cases n <;> rfl)]
    cases n <;> rfl
  · intro empty queue dry
    rw [empty, show (s.lane l).queue = [] from queue] at beat
    refine beat.trans ?_
    change (s.worked l committed told).actDry l c.record.id = _
    rw [State.actDry_wait (by rw [State.worked_lane, config]; exact dry), State.worked_stallDry, quiet]
    rfl
  · intro empty queue dry
    rw [show other = .empty from empty, show (s.lane l).queue = [] from queue] at beat
    refine beat.trans (Eq.trans ?_ (halted .ended))
    exact State.actDry_stop (by rw [State.worked_lane, config]; exact dry)

end Sys2Proof.Machine
end

section
/-! SUPPORT and the obligations of the ARRAY PORT: ranking, selection and grant (R46, R49 to R58). -/

namespace Sys2Proof.Machine

open Sys2Proof

/-! ## Ranking (R52, R53) -/

theorem Rank.before_iff (x y : Rank) : x.before y = true ↔
    x.cls < y.cls ∨ (x.cls = y.cls ∧ (x.metric < y.metric ∨ (x.metric = y.metric ∧
      (x.lane < y.lane ∨ (x.lane = y.lane ∧ x.order < y.order))))) := by
  unfold Rank.before
  by_cases cls : x.cls = y.cls
  · by_cases metric : x.metric = y.metric
    · by_cases lane : x.lane = y.lane
      · simp [cls, metric, lane]
      · simp [cls, metric, lane]
    · simp [cls, metric]
  · simp [cls]

theorem Rank.before_irrefl (x : Rank) : x.before x = false := by
  rw [Bool.eq_false_iff, ne_eq, Rank.before_iff]
  omega

/-- Where `y` does not rank before `x` and `z` does not rank before `y`, `z` does not rank before `x`. -/
theorem Rank.not_before_trans {x y z : Rank} (hxy : y.before x = false) (hyz : z.before y = false) :
    z.before x = false := by
  rw [Bool.eq_false_iff, ne_eq, Rank.before_iff] at hxy hyz ⊢
  omega

/-- Of two ranks one at least is not before the other. -/
theorem Rank.not_before_of_before {x y : Rank} (h : x.before y = true) : y.before x = false := by
  rw [Rank.before_iff] at h
  rw [Bool.eq_false_iff, ne_eq, Rank.before_iff]
  omega

section

variable {s : State}

theorem State.betterClaim_least (x y : LaneClaim) :
    (s.rank x).before (s.rank (s.betterClaim x y)) = false ∧ (s.rank y).before (s.rank (s.betterClaim x y)) = false := by
  unfold State.betterClaim
  split
  · next h => exact ⟨Rank.not_before_of_before h, Rank.before_irrefl _⟩
  · next h => exact ⟨Rank.before_irrefl _, Bool.eq_false_iff.mpr h⟩

/-- The better of each claim and the best before it ranks first of all. -/
theorem State.foldl_betterClaim_least (cs : List LaneClaim) : ∀ (c : LaneClaim), ∀ other ∈ c :: cs,
    (s.rank other).before (s.rank (cs.foldl s.betterClaim c)) = false := by
  induction cs with
  | nil =>
    intro c other mem
    rw [List.mem_singleton.mp mem]
    exact Rank.before_irrefl _
  | cons d cs ih =>
    intro c other mem
    obtain ⟨notC, notD⟩ := s.betterClaim_least c d
    have best := ih (s.betterClaim c d) (s.betterClaim c d) List.mem_cons_self
    rcases List.mem_cons.mp mem with rfl | mem
    · exact Rank.not_before_trans best notC
    · rcases List.mem_cons.mp mem with rfl | mem
      · exact Rank.not_before_trans best notD
      · exact ih _ other (List.mem_cons_of_mem _ mem)

theorem State.bestClaim_least {claim : LaneClaim} (best : s.bestClaim = some claim) :
    ∀ other ∈ s.laneClaims, (s.rank other).before (s.rank claim) = false := by
  unfold State.bestClaim at best
  split at best
  · cases best
  · next c cs claims =>
    cases best
    rw [claims]
    exact State.foldl_betterClaim_least cs c

theorem State.bestClaim_none : s.bestClaim = none ↔ s.laneClaims = [] := by
  unfold State.bestClaim
  cases s.laneClaims <;> simp

theorem State.rank_first {claim : LaneClaim} {runway : Nat} (h : (s.lane claim.lane).runway = some runway) :
    s.rank claim = { cls := 0, metric := runway, lane := laneNumber claim.lane, order := claim.cue.order } := by
  simp only [State.rank, h]

theorem State.rank_second {claim : LaneClaim} (h : (s.lane claim.lane).runway = none) :
    s.rank claim = { cls := 1, metric := claim.age, lane := laneNumber claim.lane, order := claim.cue.order } := by
  simp only [State.rank, h]

end

/-- Settles O35: the lane's state and its ACTIVE cue decide the runway, and the ranks are ordered lexicographically. -/
theorem bestClaimHasLeastRunway : Obligations.BestClaimHasLeastRunway := by
  intro s claim ln first second
  refine ⟨fun cause state => ?_, fun n c p k state active cue progress reps => ?_,
    fun n p state active progress reps => ?_, fun state => ?_, fun best => ?_, Rank.before_iff⟩
  · refine State.rank_first ?_
    simp only [Lane.runway, show (s.lane claim.lane).state = _ from state]
  · refine State.rank_first ?_
    simp only [Lane.runway, show (s.lane claim.lane).state = _ from state,
      show (s.lane claim.lane).activeSlot = _ from active, show ((s.lane claim.lane).slot n).cue? = _ from cue,
      show ((s.lane claim.lane).slot n).progress? = _ from progress, reps]
    rfl
  · refine State.rank_second ?_
    simp only [Lane.runway, show (s.lane claim.lane).state = _ from state,
      show (s.lane claim.lane).activeSlot = _ from active, show ((s.lane claim.lane).slot n).progress? = _ from progress]
    cases ((s.lane claim.lane).slot n).cue? <;> simp only [reps]
  · refine State.rank_second ?_
    rcases state with h | h | ⟨r, ids, h⟩ <;> simp only [Lane.runway, show (s.lane claim.lane).state = _ from h]
  · exact ⟨s.bestClaim_mem claim best, State.bestClaim_least best⟩

/-! ## Selection (R49, R50, R54 to R58) -/

section

variable {s : State}

theorem State.choose_eq_host {op : HostOp} {rest : List HostOp} (waiting : s.hostWaiting = op :: rest)
    (turn : s.laneClaims = [] ∨ 3 ≤ s.port.laneGrants) : s.choose = some (.host op rest) := by
  unfold State.choose
  rw [waiting]
  cases best : s.bestClaim with
  | none => rfl
  | some claim =>
    rcases turn with no | share
    · cases best.symm.trans (State.bestClaim_none.mpr no)
    · exact if_pos share

theorem State.choose_eq_lane {claim : LaneClaim} (best : s.bestClaim = some claim)
    (turn : s.hostWaiting = [] ∨ s.port.laneGrants < 3) : s.choose = some (.lane claim) := by
  unfold State.choose
  rw [best]
  cases waiting : s.hostWaiting with
  | nil => rfl
  | cons op rest =>
    rcases turn with no | share
    · cases waiting.symm.trans no
    · exact if_neg (Nat.not_le.mpr share)

/-- With the port FREE a selection runs its turns. -/
theorem State.select_free (free : s.port.inFlight = none) :
    s.select = s.selectLoop ((laneOrder.map fun l => (s.lane l).heldCount).sum + s.hostWaiting.length + 1) := by
  simp only [State.select, free, State.selectFuel]

theorem State.select_grantHost {op : HostOp} {rest : List HostOp} {res : Resolution} (free : s.port.inFlight = none)
    (chosen : s.choose = some (.host op rest)) (bound : s.resolve op.ref = some res) :
    s.select = s.grantHost op rest res := by
  rw [State.select_free free, State.selectLoop]
  simp only [chosen, bound]

theorem State.select_grantLane {claim : LaneClaim} {res : Resolution} (free : s.port.inFlight = none)
    (chosen : s.choose = some (.lane claim)) (bound : s.resolve claim.cue.record.ref = some res) :
    s.select = s.grantLane claim res := by
  rw [State.select_free free, State.selectLoop]
  simp only [chosen, bound]

theorem State.select_nothing (free : s.port.inFlight = none) (none : s.choose = none) : s.select = s := by
  rw [State.select_free free, State.selectLoop]
  simp only [none]

theorem State.nextHostAge_eq (rest : List HostOp) :
    s.nextHostAge rest = if rest = [] then none else some s.event := by
  cases rest <;> rfl

end

/-- Settles O36: what is chosen is granted, or dropped and the selection begins again. -/
theorem selectionGrantsByHostShare : Obligations.SelectionGrantsByHostShare := by
  intro s free
  refine ⟨fun op rest res waiting turn bound => ?_, fun claim res age best turn slot bound => ?_,
    fun claim res words range age best turn slot bound => ?_, fun claim best turn unbound => ?_,
    fun op rest e waiting turn unbound entry => ?_⟩
  · rw [State.select_grantHost free (State.choose_eq_host waiting turn) bound, State.grantHost, State.nextHostAge_eq]
    rfl
  · rw [State.select_grantLane free (State.choose_eq_lane best turn) bound, State.grantLane, slot]
    cases s.hostWaiting <;> rfl
  · rw [State.select_grantLane free (State.choose_eq_lane best turn) bound, State.grantLane, slot]
    cases s.hostWaiting <;> rfl
  · rw [State.select_dropClaim s claim free (State.choose_eq_lane best turn) unbound, State.dropClaim, State.retire_eq]
    rfl
  · rw [State.select_dropHost s op rest free (State.choose_eq_host waiting turn) unbound, State.dropHost_eq,
      State.answer_some (s.leaveHost rest) op.tag e _ _ entry, State.leaveHost, State.nextHostAge_eq]
    cases rest <;> rfl

/-- Settles O37, by induction on what bounds the turns: a turn without a grant leaves less to select from. -/
theorem selectionEndsBusyOrEmpty : Obligations.SelectionEndsBusyOrEmpty := by
  have ends : ∀ (n : Nat) (s : State), s.selectFuel ≤ n → s.port.inFlight = none →
      s.select.port.inFlight ≠ none ∨ (s.select.laneClaims = [] ∧ s.select.hostWaiting = []) := by
    intro n
    induction n with
    | zero => exact fun s bound _ => absurd bound (Nat.not_succ_le_zero _)
    | succ n ih =>
      intro s bound free
      cases chosen : s.choose with
      | none =>
        rw [State.select_nothing free chosen]
        exact .inr (s.choose_none chosen).symm
      | some x =>
        cases x with
        | host op rest =>
          cases bound' : s.resolve op.ref with
          | some res =>
            rw [State.select_grantHost free chosen bound']
            exact .inl (Option.some_ne_none _)
          | none =>
            rw [s.select_dropHost op rest free chosen bound']
            have less := s.dropHost_selectFuel op rest chosen
            exact ih _ (by omega) (by rw [State.dropHost_eq, State.answer_frame]; exact free)
        | lane claim =>
          cases bound' : s.resolve claim.cue.record.ref with
          | some res =>
            rw [State.select_grantLane free chosen bound']
            exact .inl (Option.some_ne_none _)
          | none =>
            rw [s.select_dropClaim claim free chosen bound']
            have less := s.dropClaim_selectFuel claim chosen
            exact ih _ (by omega) (by rw [s.dropClaim_port, free])
  intro s
  cases free : s.port.inFlight with
  | none => exact ends _ s (Nat.le_refl _) free
  | some op =>
    refine .inl ?_
    rw [State.select, free]
    simp [free]

end Sys2Proof.Machine
end

section
/-! SUPPORT and the obligations of the COMPLETIONS on the array port, and of what a lane then does (R35, R44, R51, R60, R61,
R93, R94, R97, R100, R109 to R112). -/

namespace Sys2Proof.Machine

open Sys2Proof

/-! ## The operation in flight ends (R51) -/

section

variable {s : State} {t0 : Nat}

theorem exec_refillCompletion_refill {l : LaneId} {n : SlotName} {res : Resolution} (high : s.resetn = true)
    (refilling : s.port.inFlight = some { op := .refill l n res, grantedAt := t0 }) :
    exec .refillCompletion s = .next (s.nextEvent.freePort.finishRefill l n res).endDeviceReset.endEvent.transmit := by
  change execRefillCompletion s = _
  rw [execRefillCompletion, State.happen_high s _ high, show s.nextEvent.port = s.port from rfl, refilling]
  rfl

theorem exec_commitCompletion_commit {l : LaneId} {n : SlotName} {res : Resolution} {half : Half} (high : s.resetn = true)
    (committing : s.port.inFlight = some { op := .commit l n res half, grantedAt := t0 }) :
    exec .commitCompletion s = .next (s.nextEvent.freePort.finishCommit l n res half).endDeviceReset.endEvent.transmit := by
  change execCommitCompletion s = _
  rw [execCommitCompletion, State.happen_high s _ high, show s.nextEvent.port = s.port from rfl, committing]
  rfl

theorem exec_hostOperationCompletion_host {op : HostOp} {res : Resolution} (high : s.resetn = true)
    (serving : s.port.inFlight = some { op := .host op res, grantedAt := t0 }) :
    exec .hostOperationCompletion s = .next (s.nextEvent.freePort.finishHost op res).endDeviceReset.endEvent.transmit := by
  change execHostOperationCompletion s = _
  rw [execHostOperationCompletion, State.happen_high s _ high, show s.nextEvent.port = s.port from rfl, serving]
  rfl

theorem State.finishRefill_loading {l : LaneId} {n : SlotName} {res : Resolution} {c : HeldCue}
    (slot : (s.lane l).slot n = .loading c) :
    s.finishRefill l n res =
      (s.setLane l ((s.lane l).setSlot n (.loaded c (s.array.span res.row c.record) res))).settleLane l c.record.id := by
  rw [State.finishRefill, slot]
  rfl

theorem State.finishRefill_discarding {l : LaneId} {n : SlotName} {res : Resolution}
    (slot : (s.lane l).slot n = .discarding) :
    s.finishRefill l n res =
      (s.setLane l ((s.lane l).setSlot n .empty)).settleLane l ((s.lane l).lastCue.getD 0) := by
  rw [State.finishRefill, slot]
  rfl

end

/-! ## What the lane then does (R33, R44, R68, R94, R97, R100) -/

section

variable {s : State} {l : LaneId} {id : Byte}

/-- A RESETTING lane waits for its operation in flight (R44). -/
theorem State.endLaneReset_waits (waits : (s.lane l).slotA.holdsReset = true ∨ (s.lane l).slotB.holdsReset = true) :
    s.endLaneReset l = s := by
  rw [← Bool.or_eq_true] at waits
  exact if_pos waits

/-- With nothing in flight its reset ends, and its LANE RESET, where one waits, is answered (R44). -/
theorem State.endLaneReset_ends (a : (s.lane l).slotA.holdsReset = false) (b : (s.lane l).slotB.holdsReset = false) :
    s.endLaneReset l =
      match s.laneResetEntry l with
      | some e => (s.setLane l (s.lane l).endReset).answer e.tag .ok .none
      | none => s.setLane l (s.lane l).endReset := by
  have ended : (s.lane l).resetWaits = false := by rw [Lane.resetWaits, a, b]; rfl
  simp only [State.endLaneReset, ended, Bool.false_eq_true, if_false, State.mapLane_eq]
  rfl

theorem State.leaveEnding_waits (waits : (s.lane l).slotA.owesCommit = true ∨ (s.lane l).slotB.owesCommit = true) :
    s.leaveEnding l = s := by
  rw [← Bool.or_eq_true] at waits
  unfold State.leaveEnding
  dsimp only
  split
  · exact if_pos waits
  · rfl

theorem State.leaveEnding_leaves {reason : HaltReason} {ids : List Byte} (state : (s.lane l).state = .ending reason ids)
    (a : (s.lane l).slotA.owesCommit = false) (b : (s.lane l).slotB.owesCommit = false) :
    s.leaveEnding l =
      (s.setLane l { s.lane l with state := .halted reason }).offer (.laneHalted l reason (s.lane l).lastCue ids) := by
  simp only [State.leaveEnding, state, a, b, Bool.or_self, Bool.false_eq_true, if_false]

end

/-- What a play lane stalled UNDERRUN that holds no cue does under STOP (R68). -/
theorem State.excused_actDry_stop {u : State} {l : LaneId} {ln : Lane} {id : Byte} (state : ln.state = .stalled .underrun)
    (was : (u.lane l).state = ln.state) (config : ln.config = (u.lane l).config) (mode : ln.config.mode = .play)
    (dry : ln.config.dry = .stop) (none : ln.held = []) :
    ((u.setLane l ln).excuseUnderrun l).actDry l id =
      ((u.excuseUnderrun l).worked l
        { ln with
          state := .halted .ended, stopPending := false, awaitingFirstBeat := false
          pins := { ld := some ln.config.idleWord, lqv := some false, lmk := false } }
        [.laneHalted l .ended ln.lastCue []]).together l (u.cascades l .ended) := by
  have canHalt : ln.state.canHalt = true := by rw [state]; rfl
  exact State.worked_actDry_stop (s := u.excuseUnderrun l) (ns := []) dry mode (congrArg LaneConfig.group config)
    ((congrArg LaneState.canHalt was).trans canHalt) canHalt none

theorem State.excuseUnderrun_eq (s : State) (l : LaneId) :
    s.excuseUnderrun l = { s with stalls := s.stalls.filter fun x => ¬ (x.lane = l ∧ x.cause = .underrun) } := by
  have same : ∀ x : OwedStall, (!(decide (x.lane = l) && decide (x.cause = .underrun))) =
      decide (¬ (x.lane = l ∧ x.cause = .underrun)) := by
    intro x
    simp
  simp only [State.excuseUnderrun, same]

/-- Settles O38: the words are the span as it stands, and each state of the lane has its own settling equation. -/
theorem refillCompletionLoadsTheSpan : Obligations.RefillCompletionLoadsTheSpan := by
  refine ⟨?_, ?_⟩
  · intro s l n res t0 high refilling free
    refine ⟨fun c slot _ => ⟨s.array.span res.row c.record, Memory.readList_length .., fun i inSpan => ?_, ?_⟩, fun slot => ?_⟩
    · rw [Memory.span, Memory.readList_length] at inSpan
      rw [Memory.span, Memory.readList_getElem? _ _ _ _ inSpan]
      cases c.record.half <;> rfl
    · rw [exec_refillCompletion_refill high refilling,
        State.finishRefill_loading (s := s.nextEvent.freePort) (c := c) slot]
      rfl
    · rw [exec_refillCompletion_refill high refilling, State.finishRefill_discarding (s := s.nextEvent.freePort) slot]
      rfl
  · intro u l id was ln idlePins excused fresh
    have sameState : ln.state = was.state := Lane.stage_state ..
    have sameConfig : ln.config = was.config := Lane.stage_config ..
    have isExcused : u.excuseUnderrun l = excused := State.excuseUnderrun_eq u l
    refine ⟨fun state => State.settleLane_priming rfl (sameState.trans state), fun n first => ?_, fun no => ?_, fun state => ?_,
      fun mode state => ⟨fun holds => ?_, fun none dry => ?_, fun none dry => ?_⟩, fun state => ⟨fun waits => ?_, fun a b => ?_⟩⟩
    · rw [Lane.firstReady, first]
    · rw [Lane.firstReady, no]
    · refine State.settleLane_stages rfl ?_
      rw [sameState, sameConfig]
      rcases state with h | h | h | h | ⟨mode, h⟩
      · exact .inr (.inl h)
      · exact .inr (.inr (.inl h))
      · exact .inl h
      · exact .inr (.inr (.inr (.inl h)))
      · exact .inr (.inr (.inr (.inr ⟨.dry, h, by decide, mode⟩)))
    · exact State.settleLane_underrun rfl (sameState.trans state) ((congrArg LaneConfig.mode sameConfig).trans mode)
        fun none => holds (List.length_eq_zero_iff.mp none)
    · have dryLane : ln.config.mode = .play := (congrArg LaneConfig.mode sameConfig).trans mode
      rw [State.settleLane_underrun_dry rfl (sameState.trans state) dryLane (List.length_eq_zero_iff.mpr none)]
      change ((u.excuseUnderrun l).worked l ln []).actDry l id = _
      rw [State.actDry_wait (by rw [State.worked_lane]; exact dry), State.worked_stallDry, Lane.quiet,
        Lane.quietPins_play dryLane, isExcused]
      rfl
    · have dryLane : ln.config.mode = .play := (congrArg LaneConfig.mode sameConfig).trans mode
      rw [State.settleLane_underrun_dry rfl (sameState.trans state) dryLane (List.length_eq_zero_iff.mpr none),
        State.excused_actDry_stop (ln := ln) (sameState.trans state) sameState.symm sameConfig dryLane dry none, isExcused]
      rfl
    · rw [State.settleLane_resetting state, State.endLaneReset_waits waits]
    · rw [State.settleLane_resetting state, State.endLaneReset_ends a b]
      refine ⟨fun noEntry => ?_, fun e entry found => ?_⟩
      · have no : u.laneResetEntry l = none := by
          refine List.find?_eq_none.mpr fun e mem both => noEntry e mem ?_
          rw [Bool.and_eq_true, decide_eq_true_eq, decide_eq_true_eq] at both
          exact both
        rw [no]
        rfl
      · have code : e.code = 0x23 := by
          have both := List.find?_some entry
          rw [Bool.and_eq_true, decide_eq_true_eq] at both
          exact both.1
        rw [show u.laneResetEntry l = some e from entry]
        dsimp only
        rw [State.answer_some (u.setLane l (u.lane l).endReset) e.tag e _ _ found, code]
        rfl

/-! ## A commit's completion (R61, R93) -/

theorem State.finishCommit_committing {s : State} {l : LaneId} {n : SlotName} {res : Resolution} {half : Half}
    {cue : Option HeldCue} {words : List Byte} {range : ColumnRange} (slot : (s.lane l).slot n = .committing cue words range) :
    s.finishCommit l n res half =
      let written : State :=
        { s.setLane l ((s.lane l).setSlot n .empty) with
          array := s.array.writeList (cellKey res.row (half.column range.first)) (rangeWords words range) }
      match cue with
      | some c => (written.offerAll (cueEndOf l c (commitOutcome c.record range))).settleLane l c.record.id
      | none => written.settleLane l 0 := by
  simp only [State.finishCommit, slot, State.retire_eq, State.mapLane_eq]
  cases cue <;> rfl

/-- A slot without a cue to return and without an ACTIVE cue comes out of a halt as it was. -/
theorem Slot.afterHalt_of_none {x : Slot} (age : Nat) (returned : x.returned? = none) (idle : x.progress? = none) :
    x.afterHalt age = x := by
  cases x <;> simp_all [Slot.returned?, Slot.progress?, Slot.afterHalt]

/-- Settles O39: the words go to the columns of the range, and each state of the lane has its own settling equation. -/
theorem commitCompletionWritesItsRange : Obligations.CommitCompletionWritesItsRange := by
  refine ⟨?_, ?_⟩
  · intro s l n res half t0 cue words range high wf committing slot full start
    have whole : rangeWords words range = words := by rw [rangeWords, ← full, List.take_length]
    have first : start = cellKey res.row (half.column range.first) := by cases half <;> rfl
    have inRow : half.column range.first + words.length ≤ 512 := by
      have := range.first.isLt
      have := range.last.isLt
      cases half <;> simp only [Half.column] <;> omega
    refine ⟨s.array.writeList start words, fun key => ?_, ?_⟩
    · exact Memory.read_writeList _ _ _ _ wf (by rw [first]; exact cellKey_lt res.row _ _ inRow)
    · rw [exec_commitCompletion_commit high committing,
        State.finishCommit_committing (s := s.nextEvent.freePort) slot, whole, first]
      cases cue <;> rfl
  · intro u l id was ln undriven
    have sameState : ln.state = was.state := Lane.stage_state ..
    have sameConfig : ln.config = was.config := Lane.stage_config ..
    refine ⟨fun cause mode state => ?_, fun reason ids state => ⟨fun owes => ?_, fun a b => ?_⟩⟩
    · have isStalled : ln.state = .stalled cause := sameState.trans state
      have isCapture : ln.config.mode = .capture := (congrArg LaneConfig.mode sameConfig).trans mode
      refine ⟨fun n x assigned slot => ?_, fun no => ⟨fun stays => ?_, fun overrun empty => ⟨fun dry => ?_, ?_⟩⟩⟩
      · rw [State.settleLane_resumes rfl isStalled isCapture assigned, Lane.run, Lane.activate_assigned slot]
        rfl
      · exact State.settleLane_waits rfl isStalled isCapture no stays
      · subst overrun
        rw [State.settleLane_overrun_dry rfl isStalled isCapture no empty]
        change (u.worked l ln []).actDry l id = _
        rw [State.actDry_wait (by rw [State.worked_lane]; exact dry), State.worked_stallDry, Lane.quiet,
          Lane.quietPins_capture isCapture]
        rfl
      · intro dry owes noA noB inactive
        subst overrun
        obtain ⟨idleA, idleB⟩ := (Lane.activeSlot_eq_none ln).mp inactive
        have keepsA := Slot.afterHalt_of_none u.event noA idleA
        have keepsB := Slot.afterHalt_of_none u.event noB idleB
        have noReturn : ln.returned = [] := by
          rw [Lane.returned_of_none (n := .a) noA]
          exact congrArg Option.toList noB
        have canHalt : ln.state.canHalt = true := by rw [isStalled]; rfl
        obtain ⟨lane, silent⟩ := Lane.halted_owing (ln := ln) l .ended u.event canHalt isCapture
          (by rw [keepsA, keepsB]; exact owes)
        rw [State.settleLane_overrun_dry rfl isStalled isCapture no empty]
        change (u.worked l ln []).actDry l id = _
        rw [State.actDry_stop (by rw [State.worked_lane]; exact dry),
          State.worked_halt _ (congrArg LaneConfig.group sameConfig) (congrArg LaneState.canHalt sameState), lane, silent,
          Lane.stopIn, keepsA, keepsB, noReturn, Lane.quietPins_capture isCapture]
        rfl
    · rw [State.settleLane_ending state, State.leaveEnding_waits owes]
    · rw [State.settleLane_ending state, State.leaveEnding_leaves state a b]

/-! ## A host operation's completion (R109 to R112) -/

/-- ROW FILL puts its word into the columns from `first` to `final` of one row (R111). -/
theorem Memory.read_fill {m : Memory} {first final : Nat} (r : Row) (key : Nat) (word : Byte) (wf : m.wf = true)
    (ordered : first ≤ final) (inside : final ≤ 511) :
    (m.writeList (cellKey r first) (List.replicate (final - first + 1) word)).read key =
      if r.val * 512 + first ≤ key ∧ key ≤ r.val * 512 + final then word else m.read key := by
  have start : cellKey r first = r.val * 512 + first := rfl
  have read := Memory.read_writeList m (cellKey r first) key (List.replicate (final - first + 1) word) wf
    (by rw [List.length_replicate]; exact cellKey_lt r _ _ (by omega))
  rw [List.length_replicate, start] at read
  rw [start, read]
  by_cases filled : r.val * 512 + first ≤ key ∧ key ≤ r.val * 512 + final
  · rw [if_pos filled, if_pos (by omega), List.getD_replicate]
    omega
  · rw [if_neg filled, if_neg (by omega)]

/-- Settles O40: what the operation stores is a list of words in one row. -/
theorem hostCompletionTakesEffect : Obligations.HostCompletionTakesEffect := by
  intro s op res t0 e high wf inRow entry serving
  refine ⟨op.kind.store s.array res.row, op.kind.reply s.array res, fun key => ?_, ?_, ?_⟩
  · cases kind : op.kind with
    | write start words =>
      rw [kind] at inRow
      exact Memory.read_writeList _ _ _ _ wf (cellKey_lt res.row _ _ (of_decide_eq_true inRow))
    | read start count => rfl
    | fill first final word =>
      rw [kind] at inRow
      obtain ⟨ordered, inside⟩ := of_decide_eq_true inRow
      exact Memory.read_fill res.row key word wf ordered inside
  · cases op.kind <;> rfl
  · rw [exec_hostOperationCompletion_host high serving, State.finishHost]
    exact congrArg (fun t : State => Host.Outcome.next t.endDeviceReset.endEvent.transmit)
      (State.answer_some _ op.tag e _ _ (by exact entry))

end Sys2Proof.Machine
end

section
/-! SUPPORT and the obligations of NOTICE ACK, of the DISCARDS and of DEVICE STATUS (R131 to R136, R140, R142, R151). -/

namespace Sys2Proof.Machine

open Sys2Proof

/-! ## NOTICE ACK (R133, R135) -/

/-- In a queue numbered from `b` an ACK counts from `b` on. -/
theorem NoticeQueue.NumberedFrom.ackCount {q : NoticeQueue} {b : Byte} (h : q.NumberedFrom b) (seq : Byte) :
    q.ackCount seq = if (seq - b).toNat < q.entries.length then (seq - b).toNat + 1 else 0 := by
  unfold NoticeQueue.ackCount
  cases entries : q.entries with
  | nil => exact (if_neg (Nat.not_lt_zero _)).symm
  | cons e es =>
    have first : e.seq = b := by simpa using h.seqs 0 e (by rw [entries]; rfl)
    rw [← first]

/-- An ACK of a held number removes the entries through it. -/
theorem NoticeQueue.ackCount_held {q : NoticeQueue} {before after : List NoticeEntry} {entry : NoticeEntry}
    (wf : q.wf = true) (entries : q.entries = before ++ entry :: after) :
    q.ackCount entry.seq = before.length + 1 := by
  obtain ⟨room, b, numbered⟩ := q.wf_iff.mp wf
  have number : entry.seq = b + BitVec.ofNat 8 before.length :=
    numbered.seqs before.length entry (by rw [entries]; simp)
  have length : q.entries.length = before.length + (after.length + 1) := by rw [entries]; simp
  have distance : (entry.seq - b).toNat = before.length := by
    rw [number, BitVec.add_comm, BitVec.add_sub_cancel, BitVec.toNat_ofNat]
    omega
  rw [numbered.ackCount, distance, if_pos (by omega)]

/-- An ACK of a number that is not held removes none. -/
theorem NoticeQueue.ackCount_not_held {q : NoticeQueue} {seq : Byte} (wf : q.wf = true)
    (absent : ∀ entry ∈ q.entries, entry.seq ≠ seq) : q.ackCount seq = 0 := by
  obtain ⟨_, b, numbered⟩ := q.wf_iff.mp wf
  rw [numbered.ackCount]
  refine if_neg fun inside => ?_
  have number := numbered.seqs _ _ (List.getElem?_eq_getElem inside)
  rw [BitVec.ofNat_toNat, BitVec.setWidth_eq, BitVec.add_comm, BitVec.sub_add_cancel] at number
  exact absent _ (List.getElem_mem inside) number

theorem exec_noticeAck {s : State} {seq : Byte} (high : s.resetn = true) :
    exec (.noticeAck seq) s = .next (s.heard.acknowledge seq).transmit := by
  change execNoticeAck seq s = _
  rw [execNoticeAck, State.happen_high s _ high]
  rfl

theorem State.acknowledge_none {s : State} {seq : Byte} (none : s.notices.ackCount seq = 0) : s.acknowledge seq = s := by
  rw [State.acknowledge, none]
  rfl

/-- Settles O42: an ACK counts the entries through its number, and the room it makes takes the NOTICES LOST. -/
theorem noticeAckRemovesThroughTheNumber : Obligations.NoticeAckRemovesThroughTheNumber := by
  intro s seq high
  refine ⟨fun before entry after noReset wf entries number => ?_, fun wf absent => ?_, fun _ empty => ?_⟩ <;>
    rw [exec_noticeAck high]
  · subst number
    have count : s.heard.notices.ackCount entry.seq = before.length + 1 := NoticeQueue.ackCount_held wf entries
    have kept : s.heard.notices.entries.drop (before.length + 1) = after := by
      rw [show s.heard.notices.entries = _ from entries, List.drop_append]
      simp
    have room : after.length < 32 := by
      have := (s.notices.wf_iff.mp wf).1
      rw [entries, List.length_append, List.length_cons] at this
      omega
    simp only [State.acknowledge, count, Nat.add_one_ne_zero, if_false, kept]
    by_cases lost : s.notices.lost = 0
    · rw [if_pos lost, if_pos (show s.heard.notices.lost = 0 from lost)]
      rfl
    · rw [if_neg lost, if_neg (show ¬ s.heard.notices.lost = 0 from lost), State.offer_eq _ _ (by exact noReset),
        NoticeQueue.join, if_pos room]
      rfl
  · rw [State.acknowledge_none (NoticeQueue.ackCount_not_held (q := s.heard.notices) wf absent)]
  · have none : s.heard.notices.ackCount seq = 0 := by
      rw [NoticeQueue.ackCount, show s.heard.notices.entries = [] from empty]
    rw [State.acknowledge_none none]

/-! ## Discards (R136, R140, R142) -/

section

variable {s : State} {highNs : Nat}

theorem State.startBitLost_iff : s.startBitLost highNs = true ↔
    s.link.receiver.lineBlocked = true ∧ highNs < s.link.rate.bitNs := by
  rw [State.startBitLost, Bool.and_eq_true, decide_eq_true_eq]

/-- The receiver takes the start bit (R140). -/
theorem State.startBitLost_eq_false (taken : s.link.receiver.lineBlocked = false ∨ s.link.rate.bitNs ≤ highNs) :
    s.startBitLost highNs = false := by
  rw [Bool.eq_false_iff, ne_eq, State.startBitLost_iff]
  rintro ⟨blocked, soon⟩
  rcases taken with free | late
  · cases free.symm.trans blocked
  · exact absurd soon (Nat.not_lt.mpr late)

theorem exec_frameDiscard_taken {case : DiscardCase} (high : s.resetn = true)
    (taken : s.link.receiver.lineBlocked = false ∨ s.link.rate.bitNs ≤ highNs) :
    exec (.frameDiscard ⟨case, highNs⟩) s =
      .next (s.nextEvent.discard (discardClass case) (blocksLine case)).transmit := by
  change execFrameDiscard ⟨case, highNs⟩ s = _
  rw [execFrameDiscard, State.happen_high s _ high]
  dsimp only
  rw [show s.nextEvent.startBitLost highNs = false from State.startBitLost_eq_false taken]
  rfl

theorem exec_frameDiscard_lost {case : DiscardCase} (high : s.resetn = true)
    (blocked : s.link.receiver.lineBlocked = true) (soon : highNs < s.link.rate.bitNs) :
    exec (.frameDiscard ⟨case, highNs⟩) s = .next s.nextEvent.transmit := by
  change execFrameDiscard ⟨case, highNs⟩ s = _
  rw [execFrameDiscard, State.happen_high s _ high]
  dsimp only
  rw [show s.nextEvent.startBitLost highNs = true from State.startBitLost_iff.mpr ⟨blocked, soon⟩]
  rfl

theorem exec_idleExpiry (high : s.resetn = true) :
    exec .idleExpiry s =
      .next (if s.nextEvent.idleOver then s.nextEvent.discard .framing false else s.nextEvent).transmit := by
  change execIdleExpiry s = _
  rw [execIdleExpiry, State.happen_high s _ high]

end

/-- Settles O44: each case has its class, and the receiver takes the frame or has lost its start bit. -/
theorem discardCountsAndReports : Obligations.DiscardCountsAndReports := by
  intro s highNs high notices discarded
  have is : ∀ kind blocked, s.nextEvent.discard kind blocked = discarded kind blocked := fun kind blocked =>
    State.discard_eq s.nextEvent kind blocked
  have each : ∀ case, s.link.receiver.lineBlocked = false ∨ s.link.rate.bitNs ≤ highNs →
      exec (.frameDiscard ⟨case, highNs⟩) s = .next (discarded (discardClass case) (blocksLine case)).transmit := by
    intro case taken
    rw [exec_frameDiscard_taken high taken, is]
  refine ⟨fun taken => ⟨each .oversize taken, each .crcMismatch taken, each .characterFault taken, each .wrongKind taken,
    each .ackLength taken⟩, fun blocked soon case => exec_frameDiscard_lost high blocked soon,
    fun inside expired => ?_, fun before => ?_⟩
  · rw [exec_idleExpiry high, if_pos (s.nextEvent.idleOver_iff.mpr ⟨inside, expired⟩), is]
  · have notOver : ¬ s.nextEvent.idleOver = true := by
      rw [State.idleOver_iff]
      rintro ⟨inside, expired⟩
      rcases before with hunting | early
      · exact inside hunting
      · exact absurd early (Nat.not_lt.mpr expired)
    rw [exec_idleExpiry high, if_neg notOver]
    rfl

/-! ## DEVICE STATUS (R151) -/

theorem exec_deviceStatus (tag : Byte) (payload : List Byte) (s : State) :
    exec (.deviceStatus tag payload) s =
      s.happen fun s => s.receiveRequest tag 0x71 payload serveDeviceStatus := rfl

/-- Settles O46: the report is taken with the request's own entry in the table, and the counters are cleared behind it. -/
theorem deviceStatusReportsAndClears : Obligations.DeviceStatusReportsAndClears := by
  intro tag b clear s bit admits replied
  have fields : parseClear [b] = .fields clear := by rw [parseClear, bit]; rfl
  have entries : (s.keptOpen tag 0x71 [b]).link.table.length = s.link.table.length + 1 := List.length_append
  have report : (s.keptOpen tag 0x71 [b]).deviceReport =
      { array := s.arrayState, crcErrors := s.link.crcErrors, framingErrors := s.link.framingErrors,
        oversizeErrors := s.link.oversizeErrors, noRoom := s.link.noRoom, noticeDepth := s.notices.entries.length,
        lost := s.notices.lost, openRequests := s.link.table.length + 1, hostDepth := s.hostDepth,
        lanes := { l0 := (s.lane .l0).state, l1 := (s.lane .l1).state, l2 := (s.lane .l2).state,
                   l3 := (s.lane .l3).state } } := by
    rw [State.deviceReport, entries]
    rfl
  rw [exec_deviceStatus, serveDeviceStatus, State.receive_fields s tag 0x71 _ _ _ _ admits fields]
  cases clear with
  | true =>
    simp only [ownDeviceStatus, if_true, report]
    rw [State.answer_opened s _ tag 0x71 [b] .withOwner .ok _ admits rfl]
    rfl
  | false =>
    simp only [ownDeviceStatus, Bool.false_eq_true, if_false, report, State.answer_keptOpen s tag 0x71 _ _ _ admits]
    rfl

end Sys2Proof.Machine
end

section
/-! SUPPORT and the obligations of DEVICE RESET (R152 to R154). -/

namespace Sys2Proof.Machine

open Sys2Proof

/-! ## The requests answered ABORTED (R152) -/

/-- The reply of an entry that a device reset aborts. -/
def Entry.aborted (e : Entry) : Reply :=
  { kind := .answer, tag := e.tag, code := e.code, status := .aborted, fields := .none }

/-- With distinct tags the entry of a tag is the one that has it. -/
theorem State.entryOf_of_mem {s : State} {e : Entry} (nodup : (s.link.table.map fun x => x.tag).Nodup)
    (mem : e ∈ s.link.table) : s.entryOf e.tag = some e := by
  cases found : s.entryOf e.tag with
  | none => exact absurd (List.find?_eq_none.mp found e mem) (by simp)
  | some x =>
    have same : x.tag = e.tag := of_decide_eq_true (List.find?_some (p := fun x : Entry => decide (x.tag = e.tag)) found)
    rw [List.inj_on_of_nodup_map nodup (List.mem_of_find?_eq_some found) mem same]

/-- Each of the entries is answered ABORTED, in order, and leaves the table. -/
theorem State.abortAll_entries (es : List Entry) : ∀ (s : State), (s.link.table.map fun x => x.tag).Nodup →
    es.Nodup → (∀ e ∈ es, e ∈ s.link.table) →
    s.abortAll (es.map fun e => e.tag) =
      { s with
        link := { s.link with table := s.link.table.filter fun x => decide (x.tag ∉ es.map fun e => e.tag) }
        tx := { s.tx with replies := s.tx.replies ++ es.map Entry.aborted } } := by
  induction es with
  | nil =>
    intro s _ _ _
    simp [State.abortAll]
  | cons e es ih =>
    intro s nodup distinct held
    obtain ⟨fresh, distinct⟩ := List.nodup_cons.mp distinct
    have mem : e ∈ s.link.table := held e List.mem_cons_self
    have answered := State.answer_some s e.tag e .aborted .none (State.entryOf_of_mem nodup mem)
    have nodup' : ((s.answer e.tag .aborted .none).link.table.map fun x => x.tag).Nodup := by
      rw [answered]
      exact nodup.sublist (List.filter_sublist.map _)
    have held' : ∀ x ∈ es, x ∈ (s.answer e.tag .aborted .none).link.table := by
      intro x memx
      have inTable := held x (List.mem_cons_of_mem _ memx)
      rw [answered]
      refine List.mem_filter.mpr ⟨inTable, decide_eq_true fun same => fresh ?_⟩
      rwa [← List.inj_on_of_nodup_map nodup inTable mem same]
    rw [List.map_cons, State.abortAll, ih _ nodup' distinct held', answered]
    simp only [List.filter_filter, List.map_cons, List.mem_cons, List.append_assoc, List.singleton_append, Entry.aborted,
      not_or, Bool.decide_and]
    simp only [ne_eq, Bool.and_comm]

/-- A device reset aborts the entries whose tags it picks. -/
theorem State.abortAll_picked {s : State} (picks : Byte → Bool) (nodup : (s.link.table.map fun x => x.tag).Nodup) :
    s.abortAll ((s.link.table.map fun e => e.tag).filter picks) =
      { s with
        link := { s.link with table := s.link.table.filter fun x => !picks x.tag }
        tx := { s.tx with replies :=
          s.tx.replies ++ (s.link.table.filter fun x => picks x.tag).map Entry.aborted } } := by
  have picked : (s.link.table.map fun e => e.tag).filter picks =
      (s.link.table.filter fun x => picks x.tag).map fun e => e.tag := List.filter_map
  have left : (s.link.table.filter fun x => decide (x.tag ∉ (s.link.table.filter fun y => picks y.tag).map fun e => e.tag)) =
      s.link.table.filter fun x => !picks x.tag := by
    refine List.filter_congr fun x mem => ?_
    rw [← picked]
    have inTable : x.tag ∈ s.link.table.map fun e => e.tag := List.mem_map_of_mem mem
    simp only [List.mem_filter, inTable, true_and]
    cases picks x.tag <;> rfl
  rw [picked, State.abortAll_entries _ s nodup (nodup.of_map.filter _) (fun e mem => (List.mem_filter.mp mem).1), left]

/-! ## The taking of a device reset (R152) -/

/-- The tags whose requests stay open: the host operation in flight and the reset itself. -/
theorem State.abortAll_keptOpen {s : State} {tag : Byte} (admits : s.Admits tag [])
    (nodup : (s.link.table.map fun e => e.tag).Nodup) :
    (s.keptOpen tag 0x72 []).abortAll ((s.keptOpen tag 0x72 []).abortedTags tag) =
      { s.heard with
        link := { s.heard.link with
          table := s.link.table.filter (fun e => decide (some e.tag = s.hostInFlightTag)) ++
            [{ tag := tag, code := 0x72, payload := [], state := .withOwner }] }
        tx := { s.tx with replies := s.tx.replies ++
          (s.link.table.filter fun e => !decide (some e.tag = s.hostInFlightTag)).map Entry.aborted } } := by
  have fresh : ∀ e ∈ s.link.table, e.tag ≠ tag := s.entryOf_none tag admits.freeTag
  have nodup' : ((s.keptOpen tag 0x72 []).link.table.map fun e => e.tag).Nodup := by
    rw [State.keptOpen, List.map_append, List.nodup_append]
    refine ⟨nodup, List.nodup_singleton _, ?_⟩
    simpa using fresh
  have old : ∀ e ∈ s.link.table, decide (e.tag ≠ tag ∧ some e.tag ≠ s.hostInFlightTag) =
      !decide (some e.tag = s.hostInFlightTag) := by
    intro e mem
    simp [fresh e mem]
  have kept : ((s.keptOpen tag 0x72 []).link.table.filter fun x =>
      !decide (x.tag ≠ tag ∧ some x.tag ≠ s.hostInFlightTag)) =
      s.link.table.filter (fun e => decide (some e.tag = s.hostInFlightTag)) ++
        [{ tag := tag, code := 0x72, payload := [], state := .withOwner }] := by
    rw [State.keptOpen, List.filter_append]
    refine congrArg₂ _ (List.filter_congr fun e mem => ?_) (by simp)
    rw [old e mem, Bool.not_not]
  have gone : ((s.keptOpen tag 0x72 []).link.table.filter fun x =>
      decide (x.tag ≠ tag ∧ some x.tag ≠ s.hostInFlightTag)) =
      s.link.table.filter fun e => !decide (some e.tag = s.hostInFlightTag) := by
    rw [State.keptOpen, List.filter_append, List.filter_congr old]
    simp
  have picked := State.abortAll_picked (fun t => decide (t ≠ tag ∧ some t ≠ s.hostInFlightTag)) nodup'
  rw [kept, gone] at picked
  exact picked

/-- What a device reset makes of the part before it waits or ends (R152). -/
def State.resetTaken (s : State) (tag : Byte) : State :=
  { s.heard with
    port := { s.port with laneGrants := 0 }
    hostWaiting := [], hostClaimAge := none
    lanes := s.lanes.map (Lane.deviceReset s.now)
    groups := { g1 := Group.reset, g2 := Group.reset }
    aliases := Vector.replicate 64 { row := none, generation := 0 }
    notices := { entries := [], nextSeq := 0, lost := 0 }
    link := { s.heard.link with
      table := s.link.table.filter (fun e => decide (some e.tag = s.hostInFlightTag)) ++
        [{ tag := tag, code := 0x72, payload := [], state := .withOwner }]
      crcErrors := 0, framingErrors := 0, oversizeErrors := 0, noRoom := 0, deviceReset := some tag }
    tx := { s.tx with replies := s.tx.replies ++
      (s.link.table.filter fun e => !decide (some e.tag = s.hostInFlightTag)).map Entry.aborted } }

/-- It waits for an operation in flight, and with the port FREE it ends in the same event (R154). -/
theorem exec_deviceReset {s : State} {tag : Byte} (admits : s.Admits tag [])
    (nodup : (s.link.table.map fun e => e.tag).Nodup) :
    exec (.deviceReset tag []) s = .next (match s.port.inFlight with
      | some _ => s.resetTaken tag
      | none => (s.resetTaken tag).endDeviceReset).transmit := by
  have taken : (s.keptOpen tag 0x72 []).takeDeviceReset tag = s.resetTaken tag := by
    rw [State.takeDeviceReset, State.abortAll_keptOpen admits nodup]
    rfl
  change s.happen (fun s => s.receiveRequest tag 0x72 [] (dispatchTo parseNothing ownDeviceReset)) = _
  rw [State.receive_fields s tag 0x72 [] _ _ () admits rfl, ownDeviceReset]
  dsimp only
  rw [taken]
  rfl

/-- A lane with an operation in flight waits in RESETTING (R152, R44). -/
theorem Lane.deviceReset_waits {ln : Lane} (now : Nat)
    (waits : (ln.slotA.afterReset.holdsReset || ln.slotB.afterReset.holdsReset) = true) :
    ln.deviceReset now =
      { ln with
        config := LaneConfig.default, state := .resetting
        slotA := ln.slotA.afterReset, slotB := ln.slotB.afterReset
        queue := [], stopPending := false, awaitingFirstBeat := false
        pins := { ld := some 0, lqv := some false, lmk := false }, dividerStart := now } :=
  if_pos waits

/-- A lane with none is IDLE at once (R152, R44). -/
theorem Lane.deviceReset_ends {ln : Lane} (now : Nat)
    (ends : (ln.slotA.afterReset.holdsReset || ln.slotB.afterReset.holdsReset) = false) :
    ln.deviceReset now = { Lane.reset with dividerStart := now, lastEdge := ln.lastEdge } :=
  if_neg (by
    change ¬ (ln.slotA.afterReset.holdsReset || ln.slotB.afterReset.holdsReset) = true
    rw [ends]
    decide)

theorem State.hostInFlightTag_eq_none {s : State} (free : s.port.inFlight = none) : s.hostInFlightTag = none := by
  simp only [State.hostInFlightTag, free]

/-- Settles O47: with the port FREE no request stays open but the reset's own, which ends at once. -/
theorem deviceResetWithPortFree : Obligations.DeviceResetWithPortFree := by
  intro tag s admits nodup free idle
  have noHost := State.hostInFlightTag_eq_none free
  have kept : s.link.table.filter (fun e => decide (some e.tag = s.hostInFlightTag)) = [] := by
    rw [noHost]
    exact List.filter_eq_nil_iff.mpr fun e _ => by simp
  have gone : s.link.table.filter (fun e => !decide (some e.tag = s.hostInFlightTag)) = s.link.table := by
    rw [noHost]
    exact List.filter_eq_self.mpr fun e _ => by simp
  have lanes : ∀ l, (s.lane l).deviceReset s.now =
      { Lane.reset with dividerStart := s.now, lastEdge := (s.lane l).lastEdge } := fun l =>
    Lane.deviceReset_ends s.now (by rw [(idle l).1, (idle l).2]; rfl)
  have own : (s.resetTaken tag).entryOf tag = some { tag := tag, code := 0x72, payload := [], state := .withOwner } := by
    simp [State.entryOf, State.resetTaken, kept]
  rw [exec_deviceReset admits nodup, free]
  dsimp only
  rw [State.endDeviceReset_some (tag := tag) rfl own]
  have table : (s.resetTaken tag).link.table.filter (fun x => decide (x.tag ≠ tag)) = [] := by
    simp [State.resetTaken, kept]
  have replies : (s.resetTaken tag).tx.replies = s.tx.replies ++ s.link.table.map Entry.aborted := by
    rw [State.resetTaken, gone]
  have fresh : (s.resetTaken tag).lanes =
      { l0 := { Lane.reset with dividerStart := s.now, lastEdge := (s.lane .l0).lastEdge }
        l1 := { Lane.reset with dividerStart := s.now, lastEdge := (s.lane .l1).lastEdge }
        l2 := { Lane.reset with dividerStart := s.now, lastEdge := (s.lane .l2).lastEdge }
        l3 := { Lane.reset with dividerStart := s.now, lastEdge := (s.lane .l3).lastEdge } } := by
    rw [← lanes .l0, ← lanes .l1, ← lanes .l2, ← lanes .l3]
    rfl
  have port : (s.resetTaken tag).port = { inFlight := none, laneGrants := 0 } := by rw [← free]; rfl
  rw [table, replies, fresh, port, ← show s.heard.link.deviceReset = none from admits.noDeviceReset]
  rfl

/-- Settles O48: what stays open is the host operation in flight and the reset itself; its end is the end of a device reset. -/
theorem deviceResetWaitsForThePort : Obligations.DeviceResetWaitsForThePort := by
  intro tag s
  refine ⟨?_, State.endDeviceReset_none, fun e inReset entry => State.endDeviceReset_some inReset entry⟩
  intro f admits nodup busy holds left waiting reset stays
  have stays' : ∀ e : Entry, decide (some e.tag = s.hostInFlightTag) = stays e := by
    intro e
    obtain ⟨op, t0⟩ := f
    simp only [State.hostInFlightTag, busy, stays]
    cases op <;> simp
  have lanes : ∀ l, (s.lane l).deviceReset s.now = reset l := by
    intro l
    have isLeft : ∀ x : Slot, x.afterReset = left x := fun x => by cases x <;> rfl
    have isHolds : ∀ x : Slot, x.afterReset.holdsReset = holds x := fun x => by cases x <;> rfl
    simp only [reset]
    split
    · next waits => rw [Lane.deviceReset_waits s.now (by rw [isHolds, isHolds]; exact waits), isLeft, isLeft]
    · next ends => rw [Lane.deviceReset_ends s.now (by rw [isHolds, isHolds]; exact Bool.eq_false_iff.mpr ends)]
  have taken : (s.resetTaken tag).lanes = { l0 := reset .l0, l1 := reset .l1, l2 := reset .l2, l3 := reset .l3 } := by
    rw [← lanes .l0, ← lanes .l1, ← lanes .l2, ← lanes .l3]
    rfl
  rw [exec_deviceReset admits nodup, busy]
  refine congrArg (fun t : State => Host.Outcome.next t.transmit) ?_
  have port : (s.resetTaken tag).port = { inFlight := some f, laneGrants := 0 } := by rw [← busy]; rfl
  rw [State.resetTaken] at taken port ⊢
  simp only [stays'] at taken port ⊢
  rw [taken, port]
  rfl

end Sys2Proof.Machine
end

section
/-! SUPPORT and the obligations of the RECEIVER: the frame it keeps, and what its last character makes of it (R139 to R143,
R157). -/

namespace Sys2Proof.Machine

open Sys2Proof

/-! ## A frame, character by character (R141, R157) -/

section

variable {s : State} {b : Byte}

theorem State.goodCharacter_hunting (hunting : s.link.receiver.state = .hunting) :
    s.goodCharacter b = if b = 0xC3 then
        s.setReceiver { Receiver.hunting with state := .header, remaining := 5, lastStop := s.now }
      else s.setReceiver { s.link.receiver with lineBlocked := false } := by
  simp only [State.goodCharacter, hunting]
  rfl

theorem State.goodCharacter_header (header : s.link.receiver.state = .header) :
    s.goodCharacter b = s.headerByte { s.link.receiver with lineBlocked := false, lastStop := s.now } b := by
  simp only [State.goodCharacter, header]

theorem State.goodCharacter_payload (payload : s.link.receiver.state = .payload) :
    s.goodCharacter b = s.payloadByte { s.link.receiver with lineBlocked := false, lastStop := s.now } b := by
  simp only [State.goodCharacter, payload]

theorem State.goodCharacter_check (check : s.link.receiver.state = .check) :
    s.goodCharacter b = s.checkByte { s.link.receiver with lineBlocked := false, lastStop := s.now } b := by
  simp only [State.goodCharacter, check]

end

theorem crcOf_append (xs : List Byte) (b : Byte) : crcOf (xs ++ [b]) = crcByte (crcOf xs) b := by
  rw [crcOf, List.foldl_append]
  rfl

/-- The receiver inside a frame, with the bytes it has kept since the kind and their CRC. -/
def Receiver.keeping (state : FrameState) (remaining now : Nat) (bytes : List Byte) : Receiver :=
  { state := state, remaining := remaining, crc := crcOf bytes, bytes := bytes, checkLow := 0, lineBlocked := false,
    lastStop := now }

section

variable {s : State} {b : Byte} {bytes : List Byte}

theorem State.goodCharacter_start (hunting : s.link.receiver.state = .hunting) :
    s.goodCharacter 0xC3 = s.setReceiver (.keeping .header 5 s.now []) := by
  rw [State.goodCharacter_hunting hunting, if_pos rfl]
  rfl

/-- A header byte that is not the last. -/
theorem State.goodCharacter_header_more (n : Nat) :
    (s.setReceiver (.keeping .header (n + 2) s.now bytes)).goodCharacter b =
      s.setReceiver (.keeping .header (n + 1) s.now (bytes ++ [b])) := by
  rw [Receiver.keeping, Receiver.keeping, crcOf_append, State.goodCharacter_header rfl, State.headerByte]
  exact if_pos (Nat.succ_pos n)

/-- The last header byte, its length field within bounds: the payload follows, or the check bytes of an empty one. -/
theorem State.goodCharacter_header_last (fits : headerLength (bytes ++ [b]) ≤ 528) :
    (s.setReceiver (.keeping .header 1 s.now bytes)).goodCharacter b =
      if headerLength (bytes ++ [b]) = 0 then s.setReceiver (.keeping .check 2 s.now (bytes ++ [b]))
      else s.setReceiver (.keeping .payload (headerLength (bytes ++ [b])) s.now (bytes ++ [b])) := by
  rw [Receiver.keeping, Receiver.keeping, Receiver.keeping, crcOf_append, State.goodCharacter_header rfl, State.headerByte]
  exact (if_neg (Nat.lt_irrefl 0)).trans (if_neg (Nat.not_lt.mpr fits))

theorem State.goodCharacter_payload_more (n : Nat) :
    (s.setReceiver (.keeping .payload (n + 2) s.now bytes)).goodCharacter b =
      s.setReceiver (.keeping .payload (n + 1) s.now (bytes ++ [b])) := by
  rw [Receiver.keeping, Receiver.keeping, crcOf_append, State.goodCharacter_payload rfl, State.payloadByte]
  exact if_pos (Nat.succ_pos n)

theorem State.goodCharacter_payload_last :
    (s.setReceiver (.keeping .payload 1 s.now bytes)).goodCharacter b =
      s.setReceiver (.keeping .check 2 s.now (bytes ++ [b])) := by
  rw [Receiver.keeping, Receiver.keeping, crcOf_append, State.goodCharacter_payload rfl, State.payloadByte]
  exact if_neg (Nat.lt_irrefl 0)

end

/-- The payload, byte by byte. -/
theorem State.foldl_goodCharacter_payload {s : State} (ws : List Byte) : ∀ (w : Byte) (bytes : List Byte),
    (w :: ws).foldl State.goodCharacter (s.setReceiver (.keeping .payload (ws.length + 1) s.now bytes)) =
      s.setReceiver (.keeping .check 2 s.now (bytes ++ w :: ws)) := by
  induction ws with
  | nil => exact fun w bytes => State.goodCharacter_payload_last
  | cons v ws ih =>
    intro w bytes
    rw [List.foldl_cons, List.length_cons, State.goodCharacter_payload_more, ih, List.append_assoc, List.singleton_append]

/-- Settles O49: the header byte by byte, then the payload. -/
theorem receiverKeepsTheFrame : Obligations.ReceiverKeepsTheFrame := by
  intro s kind tag code payload hunting fits body
  have length : headerLength ([kind, tag, code, loByte payload.length] ++ [hiByte payload.length]) = payload.length :=
    pairNat_fieldBytes (by omega)
  have header : [0xC3, kind, tag, code, loByte payload.length].foldl State.goodCharacter s =
      s.setReceiver (.keeping .header 1 s.now [kind, tag, code, loByte payload.length]) := by
    simp only [List.foldl_cons, List.foldl_nil, State.goodCharacter_start hunting, State.goodCharacter_header_more 3,
      State.goodCharacter_header_more 2, State.goodCharacter_header_more 1, State.goodCharacter_header_more 0,
      List.nil_append, List.cons_append]
  have split : (0xC3 :: body : List Byte) =
      [0xC3, kind, tag, code, loByte payload.length] ++ hiByte payload.length :: payload := rfl
  have whole : ([kind, tag, code, loByte payload.length] ++ [hiByte payload.length]) ++ payload = body := rfl
  rw [split, List.foldl_append, header, List.foldl_cons, State.goodCharacter_header_last (by rw [length]; exact fits), length]
  change _ = s.setReceiver (.keeping .check 2 s.now body)
  rw [← whole]
  cases payload with
  | nil => rw [if_pos List.length_nil, List.append_nil, List.foldl_nil]
  | cons w ws => rw [if_neg (by simp), List.length_cons, State.foldl_goodCharacter_payload]

/-! ## What a character makes of the frame (R140 to R143) -/

section

variable {s : State} {b : Byte} {stop : Bool} {highNs : Nat}

theorem exec_characterReceived_lost (high : s.resetn = true) (blocked : s.link.receiver.lineBlocked = true)
    (soon : highNs < s.link.rate.bitNs) : exec (.characterReceived b ⟨stop, highNs⟩) s = .next s.nextEvent.transmit := by
  change execCharacterReceived b ⟨stop, highNs⟩ s = _
  rw [execCharacterReceived, State.happen_high s _ high]
  dsimp only
  rw [show s.nextEvent.startBitLost highNs = true from State.startBitLost_iff.mpr ⟨blocked, soon⟩]
  rfl

theorem exec_characterReceived_taken (high : s.resetn = true)
    (taken : s.link.receiver.lineBlocked = false ∨ s.link.rate.bitNs ≤ highNs) :
    exec (.characterReceived b ⟨stop, highNs⟩) s =
      .next (if stop then (s.nextEvent.expireBefore highNs).goodCharacter b
        else (s.nextEvent.expireBefore highNs).badCharacter).transmit := by
  change execCharacterReceived b ⟨stop, highNs⟩ s = _
  rw [execCharacterReceived, State.happen_high s _ high]
  dsimp only
  rw [show s.nextEvent.startBitLost highNs = false from State.startBitLost_eq_false taken]
  rfl

/-- A character in HUNTING, or in time inside a frame: no idle expiry comes before it. -/
theorem exec_characterReceived_inTime (high : s.resetn = true)
    (taken : s.link.receiver.lineBlocked = false ∨ s.link.rate.bitNs ≤ highNs)
    (inTime : s.link.receiver.state = .hunting ∨ highNs ≤ 32 * s.link.rate.bitNs) :
    exec (.characterReceived b ⟨stop, highNs⟩) s =
      .next (if stop then s.nextEvent.goodCharacter b else s.nextEvent.badCharacter).transmit := by
  have same : s.nextEvent.expireBefore highNs = s.nextEvent := by
    rcases inTime with hunting | inTime
    · exact State.expireBefore_of_hunting _ _ hunting
    · exact State.expireBefore_of_inTime _ _ inTime
  rw [exec_characterReceived_taken high taken, same]

/-- The second CRC byte of a frame: its bytes are judged where the CRC is right. -/
theorem State.goodCharacter_check_last (check : s.link.receiver.state = .check) (last : s.link.receiver.remaining = 1) :
    s.goodCharacter b =
      if s.link.receiver.checkLow.toNat + 256 * b.toNat = s.link.receiver.crc.toNat then
        s.judgeFrame s.link.receiver.bytes
      else s.discard .crc false := by
  rw [State.goodCharacter_check check, State.checkByte]
  refine (if_neg ?_).trans rfl
  change ¬ 1 < s.link.receiver.remaining
  rw [last]
  exact Nat.lt_irrefl 1

/-- The second CRC byte, in time: the bytes that the receiver has kept are judged, or discarded. -/
theorem exec_characterReceived_judged {bytes : List Byte} (high : s.resetn = true)
    (taken : s.link.receiver.lineBlocked = false ∨ s.link.rate.bitNs ≤ highNs) (inTime : highNs ≤ 32 * s.link.rate.bitNs)
    (check : s.link.receiver.state = .check) (last : s.link.receiver.remaining = 1)
    (kept : s.link.receiver.bytes = bytes) :
    exec (.characterReceived b ⟨true, highNs⟩) s =
      .next (if s.link.receiver.checkLow.toNat + 256 * b.toNat = s.link.receiver.crc.toNat then
          s.nextEvent.judgeFrame bytes
        else s.nextEvent.discard .crc false).transmit := by
  subst kept
  rw [exec_characterReceived_inTime high taken (.inr inTime), if_pos rfl,
    State.goodCharacter_check_last (s := s.nextEvent) check last]
  rfl

theorem State.badCharacter_hunting (hunting : s.link.receiver.state = .hunting) :
    s.badCharacter = s.setReceiver { s.link.receiver with lineBlocked := true } := if_pos hunting

theorem State.badCharacter_inFrame (inside : s.link.receiver.state ≠ .hunting) :
    s.badCharacter = s.discard .framing true := if_neg inside

/-- The bytes of a frame by its kind (R142, R143). -/
theorem State.judgeFrame_eq (kind tag code : Byte) (payload : List Byte) :
    s.judgeFrame ([kind, tag, code] ++ fieldBytes payload.length ++ payload) =
      if kind = 0x01 then s.receiveRequest tag code payload (serviceOf code)
      else if kind = 0x02 then
        match payload with
        | [seq] => (s.hunt false).acknowledge seq
        | _ => s.discard .framing false
      else s.discard .framing false := rfl

theorem State.goodCharacter_oversize {bytes : List Byte} (header : s.link.receiver.state = .header)
    (last : s.link.receiver.remaining = 1) (held : s.link.receiver.bytes = bytes)
    (long : 528 < headerLength (bytes ++ [b])) : s.goodCharacter b = s.discard .oversize false := by
  rw [State.goodCharacter_header header, State.headerByte]
  refine (if_neg ?_).trans (if_pos ?_)
  · change ¬ 0 < s.link.receiver.remaining - 1
    rw [last]
    exact Nat.lt_irrefl 0
  · change 528 < headerLength (s.link.receiver.bytes ++ [b])
    rw [held]
    exact long

end

/-- Settles O50: by what the line was before the start bit, the receiver's state, and the frame it has kept. -/
theorem charactersMakeTheRequest : Obligations.CharactersMakeTheRequest := by
  intro s highNs high inTime expired begun
  refine ⟨fun b stop => rfl, fun blocked soon b stop => exec_characterReceived_lost high blocked soon, fun taken =>
    ⟨fun hunting => ⟨?_, fun b other => ?_, fun b => ?_⟩, fun inside late => ?_, fun inside soon b => ?_, ?_, ?_, ?_,
      fun soon b => exec_characterReceived_inTime high taken soon⟩⟩
  · rw [exec_characterReceived_inTime high taken (.inl hunting), if_pos rfl,
      State.goodCharacter_hunting (s := s.nextEvent) hunting, if_pos rfl]
    rfl
  · rw [exec_characterReceived_inTime high taken (.inl hunting), if_pos rfl,
      State.goodCharacter_hunting (s := s.nextEvent) hunting, if_neg other]
    rfl
  · rw [exec_characterReceived_inTime high taken (.inl hunting), if_neg (by decide),
      State.badCharacter_hunting (s := s.nextEvent) hunting]
    rfl
  · have isExpired : s.nextEvent.expireBefore highNs = expired :=
      (State.expireBefore_of_late s.nextEvent highNs inside (Nat.lt_of_not_le late)).trans
        (State.discard_eq s.nextEvent .framing false)
    refine ⟨?_, fun b other => ?_, fun b => ?_⟩ <;> rw [exec_characterReceived_taken high taken, isExpired]
    · rw [if_pos rfl, State.goodCharacter_hunting (s := expired) rfl, if_pos rfl]
      rfl
    · rw [if_pos rfl, State.goodCharacter_hunting (s := expired) rfl, if_neg other]
      rfl
    · rw [if_neg (by decide), State.badCharacter_hunting (s := expired) rfl]
      rfl
  · rw [exec_characterReceived_inTime high taken (.inr soon), if_neg (by decide),
      State.badCharacter_inFrame (s := s.nextEvent) inside, exec_frameDiscard_taken high taken]
    rfl
  · intro b tag code payload soon check last bytes
    refine ⟨fun right => ?_, fun wrong => ?_⟩
    · rw [exec_characterReceived_judged high taken soon check last bytes, if_pos right, State.judgeFrame_eq, if_pos rfl,
        exec_requestOf, State.happen_high s _ high]
    · rw [exec_characterReceived_judged high taken soon check last bytes, if_neg wrong, exec_frameDiscard_taken high taken]
      rfl
  · intro b kind tag code payload soon check last bytes right
    have good : exec (.characterReceived b ⟨true, highNs⟩) s =
        .next (s.nextEvent.judgeFrame ([kind, tag, code] ++ fieldBytes payload.length ++ payload)).transmit := by
      rw [exec_characterReceived_judged high taken soon check last bytes, if_pos right]
    rw [State.judgeFrame_eq] at good
    refine ⟨fun seq ack one => ?_, fun ack length => ?_, fun notRequest notAck => ?_⟩ <;> rw [good]
    · subst ack one
      rw [exec_noticeAck high]
      rfl
    · subst ack
      rw [exec_frameDiscard_taken high taken]
      rcases payload with _ | ⟨x, _ | ⟨y, rest⟩⟩
      · rfl
      · exact absurd rfl length
      · rfl
    · rw [if_neg notRequest, if_neg notAck, exec_frameDiscard_taken high taken]
      rfl
  · intro b kind tag code lo soon header last bytes long
    rw [exec_characterReceived_inTime high taken (.inr soon), if_pos rfl,
      State.goodCharacter_oversize (s := s.nextEvent) header last bytes long, exec_frameDiscard_taken high taken]
    rfl

end Sys2Proof.Machine
end

section
/-! SUPPORT and the obligation of the TRANSMITTER: its choice, the levels of HTX, and the bytes of its frames (R132, R139,
R148, R149, R156 to R159). -/

namespace Sys2Proof.Machine

open Sys2Proof

/-! ## The choice (R149) -/

section

variable {s : State} {r : Reply} {rest : List Reply} {e : NoticeEntry}

theorem NoticeQueue.offered_none {q : NoticeQueue} : q.offered = none ↔ ∀ e ∈ q.entries, e.sent = true := by
  simp [NoticeQueue.offered]

/-- The oldest UNSENT entry stands behind SENT ones alone. -/
theorem NoticeQueue.offered_some {q : NoticeQueue} {sent unsent : List NoticeEntry}
    (entries : q.entries = sent ++ e :: unsent) (before : ∀ x ∈ sent, x.sent = true) (first : e.sent = false) :
    q.offered = some e := by
  have none : sent.find? (fun x => !x.sent) = none := List.find?_eq_none.mpr fun x mem => by simp [before x mem]
  rw [NoticeQueue.offered, entries, List.find?_append, none, List.find?_cons, first]
  rfl

/-- It alone becomes SENT. -/
theorem markSent_append {sent unsent : List NoticeEntry} (before : ∀ x ∈ sent, x.sent = true) (first : e.sent = false) :
    markSent (sent ++ e :: unsent) = sent ++ { e with sent := true } :: unsent := by
  induction sent with
  | nil => simp [markSent, first]
  | cons x sent ih =>
    rw [List.cons_append, markSent, before x List.mem_cons_self, if_pos rfl,
      ih fun y mem => before y (List.mem_cons_of_mem _ mem)]
    rfl

theorem State.transmit_nothing (free : s.tx.sending = none) (replies : s.tx.replies = [])
    (offered : s.notices.offered = none) : s.transmit = s := by
  simp only [State.transmit, free, replies, offered]

theorem State.transmit_reply_alone (free : s.tx.sending = none) (replies : s.tx.replies = r :: rest)
    (offered : s.notices.offered = none) : s.transmit = s.takeReply r rest 0 := by
  simp only [State.transmit, free, replies, offered]

theorem State.transmit_reply_first (free : s.tx.sending = none) (replies : s.tx.replies = r :: rest)
    (offered : s.notices.offered = some e) (share : s.tx.replyCount < 4) :
    s.transmit = s.takeReply r rest (s.tx.replyCount + 1) := by
  simp only [State.transmit, free, replies, offered]
  exact if_pos share

theorem State.transmit_notice (free : s.tx.sending = none) (offered : s.notices.offered = some e)
    (turn : s.tx.replies = [] ∨ 4 ≤ s.tx.replyCount) : s.transmit = s.takeNotice e := by
  simp only [State.transmit, free, offered]
  cases replies : s.tx.replies with
  | nil => rfl
  | cons r rest =>
    rcases turn with none | share
    · cases replies.symm.trans none
    · exact if_neg (Nat.not_lt.mpr share)

theorem exec_transmitterFrameEnd (high : s.resetn = true) :
    exec .transmitterFrameEnd s =
      .next (State.transmit { s with event := s.event + 1, tx := { s.tx with sending := none } }) := by
  change execTransmitterFrameEnd s = _
  rw [execTransmitterFrameEnd, State.happen_high s _ high]
  rfl

end

/-! ## HTX (R139) -/

/-- Behind the last character HTX is high. -/
theorem State.htx_behind {s : State} {f : Sending} (high : s.resetn = true) (sending : s.tx.sending = some f)
    (behind : f.startedAt + f.frame.length * 10 * s.link.rate.bitNs ≤ s.now) : s.htx = true := by
  have past : f.levels.length ≤ (s.now - f.startedAt) / s.link.rate.bitNs := by
    rw [Sending.levels_length, Nat.le_div_iff_mul_le s.link.rate.bitNs_pos]
    omega
  rw [State.htx_of_sending s f high sending, List.getD_eq_getElem?_getD, List.getElem?_eq_none past]
  rfl

/-- In bit time `j` of character `i` HTX shows the start bit, a data bit or the stop bit. -/
theorem State.htx_at {s : State} {f : Sending} {i j : Nat} {b : Byte} (high : s.resetn = true)
    (sending : s.tx.sending = some f) (character : f.frame[i]? = some b) (bit : j < 10)
    (begun : f.startedAt + (i * 10 + j) * s.link.rate.bitNs ≤ s.now)
    (running : s.now < f.startedAt + (i * 10 + j + 1) * s.link.rate.bitNs) :
    s.htx = if j = 0 then false else if j = 9 then true else b.getLsbD (j - 1) := by
  have time : (s.now - f.startedAt) / s.link.rate.bitNs = i * 10 + j :=
    Nat.div_eq_of_lt_le (by omega) (by omega)
  rw [State.htx_of_sending s f high sending, time, List.getD_eq_getElem?_getD, f.levels_getElem? i j b character bit,
    characterLevels_getElem? b true j bit, Option.getD_some]

/-! ## The bytes of a frame (Tables 10-1 and 10-5 to 10-9) -/

/-- R157's shift: the bit that leaves the register and the data bit decide. -/
theorem crcBit_eq (crc : Word16) (bit : Bool) :
    crcBit crc bit = if (crc.getLsbD 15 ^^ bit) = true then (crc <<< 1) ^^^ 0x1021 else crc <<< 1 := by
  have leaves : crc.msb = crc.getLsbD 15 := BitVec.msb_eq_getLsbD_last crc
  rw [crcBit, leaves]

theorem crcOf_digits : crcOf [0x31, 0x32, 0x33, 0x34, 0x35, 0x36, 0x37, 0x38, 0x39] = 0x29B1 := by decide +kernel

/-- The resolution block of Table 10-5, by what is present. -/
theorem resolutionBytes_eq (row : Option Row) (generation : Option Byte) :
    resolutionBytes row generation =
      match row, generation with
      | some r, some g => [0x03] ++ fieldBytes r.val ++ [g]
      | some r, none => [0x01] ++ fieldBytes r.val ++ [0]
      | none, some g => [0x02, 0, 0, g]
      | none, none => [0, 0, 0, 0] := by
  cases row <;> cases generation <;> simp [resolutionBytes, fieldBytes, loByte, hiByte]

theorem aliasBytes_eq (n : AliasNo) (e : AliasEntry) :
    aliasBytes n e =
      match e.row with
      | some r => [loByte n.val] ++ [1] ++ fieldBytes r.val ++ [e.generation]
      | none => [loByte n.val] ++ [0, 0, 0] ++ [e.generation] := by
  obtain ⟨row, generation⟩ := e
  cases row <;> simp [aliasBytes, boolByte, fieldBytes, loByte, hiByte]

theorem memberBytes_eq (members : List (LaneId × LaneState)) :
    memberBytes members = members.flatMap fun m => [laneByte m.1, laneStateByte m.2] := by
  induction members with
  | nil => rfl
  | cons m members ih => rw [memberBytes, ih]; rfl

/-- Settles O51: the choice by what waits, the levels by the bit time, and each table's bytes value by value. -/
theorem transmitterChoosesByReplyShare : Obligations.TransmitterChoosesByReplyShare := by
  refine ⟨fun s => ⟨fun sending => ?_, fun free none sent => ?_, fun r rest free replies turn => ?_,
    fun sent e unsent free entries before first turn => ?_, exec_transmitterFrameEnd⟩,
    fun s => ⟨fun quiet => ?_, fun f high sending => ⟨State.htx_behind high sending, fun i j b =>
      State.htx_at high sending⟩⟩, ?_⟩
  · cases busy : s.tx.sending with
    | none => exact absurd busy sending
    | some f => simp only [State.transmit, busy]
  · exact State.transmit_nothing free none (NoticeQueue.offered_none.mpr sent)
  · by_cases sent : ∀ e ∈ s.notices.entries, e.sent = true
    · rw [State.transmit_reply_alone free replies (NoticeQueue.offered_none.mpr sent), if_pos (List.all_eq_true.mpr sent)]
      rfl
    · obtain ⟨e, offered⟩ := Option.ne_none_iff_exists'.mp fun none => sent (NoticeQueue.offered_none.mp none)
      rw [State.transmit_reply_first free replies offered (turn.resolve_left sent),
        if_neg fun all => sent (List.all_eq_true.mp all)]
      rfl
  · rw [State.transmit_notice free (NoticeQueue.offered_some entries before first) turn, State.takeNotice, entries,
      markSent_append before first]
  · rcases quiet with low | free
    · exact State.htx_of_low s low
    · exact State.htx_of_free s free
  · intro two one shift crc frame block lane state cause reason active slot repetitions outcome group groupState yes fields
      status
    have isShift : shift = crcBit := funext fun crc => funext fun bit => (crcBit_eq crc bit).symm
    have isCrc : crc = crcOf := by
      funext bytes
      simp only [crc, isShift]
      rfl
    have isFrame : frame = frameBytes := by
      funext kind tag code payload
      simp only [frame, isCrc]
      rfl
    have isLane : lane = laneByte := funext fun l => by cases l <;> rfl
    have isState : state = laneStateByte := funext fun st => by cases st <;> rfl
    have isBlock : block = resolutionBytes := funext fun row => funext fun gen => by
      rw [resolutionBytes_eq]
      cases row <;> cases gen <;> rfl
    have isCause : cause = stallCauseByte := funext fun x => by rcases x with _ | x <;> [rfl; (cases x <;> rfl)]
    have isReason : reason = haltReasonByte := funext fun x => by rcases x with _ | x <;> [rfl; (cases x <;> rfl)]
    have isActive : active = activeByte := funext fun x => by rcases x with _ | x <;> [rfl; (cases x <;> rfl)]
    have isRepetitions : repetitions = repsByte := funext fun x => by rcases x with _ | x <;> [rfl; (cases x <;> rfl)]
    have isOutcome : outcome = outcomeByte := funext fun o => by cases o <;> rfl
    have isGroup : group = groupByte := funext fun g => by cases g <;> rfl
    have isGroupState : groupState = groupStateByte := funext fun st => by cases st <;> rfl
    have isYes : yes = boolByte := rfl
    have isStatus : ∀ st, status st = BitVec.ofNat 8 (0x80 + statusValue st) := fun st => by cases st <;> rfl
    have isSlot : slot = SlotReport.bytes := funext fun x => by
      obtain ⟨status, cue⟩ := x
      cases status <;> rfl
    have isFields : ∀ x, fields x = x.bytes := by
      intro x
      simp only [fields, isLane, isState, isBlock, isSlot, isCause, isReason, isActive, isRepetitions, isGroupState, isYes]
      cases x with
      | none => rfl
      | flushed n => rfl
      | cueList r => rfl
      | laneStatus r => rfl
      | rowUsed r => rfl
      | rowWords r start words => rfl
      | aliasEntry n e =>
        rw [ReplyFields.bytes, aliasBytes_eq]
        rfl
      | groupStatus r =>
        obtain ⟨⟨trigger, together, st⟩, members⟩ := r
        rw [ReplyFields.bytes, GroupReport.bytes, memberBytes_eq]
        cases trigger <;> rfl
      | echo bytes => rfl
      | deviceStatus r =>
        obtain ⟨array⟩ := r
        cases array <;> rfl
    refine ⟨fun r => ?_, fun k e => ?_, ?_⟩
    · rw [Reply.frame, isFrame, isStatus, isFields]
    · obtain ⟨seq, notice, sent⟩ := e
      simp only [isFrame, isLane, isBlock, isCause, isReason, isOutcome, isGroup, isGroupState, isYes]
      cases notice with
      | start c rate => cases c <;> cases rate <;> rfl
      | linkError kind => cases kind <;> rfl
      | _ => rfl
    · rw [isCrc]
      exact crcOf_digits

end Sys2Proof.Machine
end
